-- ==== Sys2Proof/Word.lean ====
section
/-! DEFINITION. The fixed-width words of the block (spec/00_scope.md R11): bits are numbered from 0, the least
significant, upward; every quantity is unsigned. -/

namespace Sys2Proof

/-- Eight bits: an identity byte, the command byte, the cursor's mask, a byte of an operation word. -/
abbrev Byte := BitVec 8

/-- The six-bit classification key of a pulse (30_encoding R83). -/
abbrev Key := BitVec 6

end Sys2Proof
end

