-- ==== Sys2Proof/Config.lean ====
section
/-! DEFINITION. The configuration record: every OPEN parameter of 00_scope R7, fixed before power-on and changed by no
operation (10_state R38). A machine state carries one record, written by nothing (assumption 1), so a statement about
every state is a statement about every configuration. The Identity, which R7 lists too, lives in the state's store
(assumption 8). -/

namespace Sys2Proof

/-- Edge source, "direct GPIO vs. comparator" (00_scope R7, 42_hw_interface R209, D35): no semantic effect. -/
inductive EdgeSource where
  | gpio
  | comparator
deriving DecidableEq, Repr

/-- The parameters of 00_scope R7. All tick values are unsigned. -/
structure Config where
  /-- TICK_HZ: rate of the Timer tick; used only when thresholds are assembled (30_encoding R86). -/
  tickHz : Nat
  /-- LAT: ticks from the edge to the handler's first action. -/
  lat : Nat
  /-- LAT_COMP: constant subtracted from every threshold when it is assembled (30_encoding R86). -/
  latComp : Nat
  /-- TIMER_BITS: the Timer counts modulo 2^TIMER_BITS. -/
  timerBits : Nat
  /-- T_W1MIN: Write-1 minimum. -/
  tW1Min : Nat
  /-- T_W0MIN: Write-0 minimum. -/
  tW0Min : Nat
  /-- T_R0EXT: Read-0 pulse-extension duration. -/
  tR0Ext : Nat
  /-- T_RSTMIN: Reset minimum. -/
  tRstMin : Nat
  /-- T_IDLE: post-reset idle interval. -/
  tIdle : Nat
  /-- T_PRES: presence-pulse duration. -/
  tPres : Nat
  /-- SKIP: build option skipShortPulses. -/
  skip : Bool
  /-- DEBUG_STROBE: build option debugPulseOutput. -/
  debugStrobe : Bool
  /-- EDGE_SOURCE: no semantic effect. -/
  edgeSource : EdgeSource
  /-- CMD_DISCOVER: command byte of DISCOVER. -/
  cmdDiscover : Byte
deriving DecidableEq, Repr

/-- CMD_READ_IDENTITY, fixed 0x33 (00_scope R7). -/
def cmdReadIdentity : Byte := 0x33#8

/-- The suggested value of CMD_DISCOVER (R7, R88). PRESUMED: the spec marks it as general knowledge, not in source;
used only for the bare table word 0xF0 and in REFCFG (assumption 11). -/
def suggestedDiscover : Byte := 0xF0#8

/-- REFCFG, the reference configuration of 00_scope R9: a test fixture, not a property of the hardware. R9 lists neither
DEBUG_STROBE nor EDGE_SOURCE: `debugStrobe := false` and `edgeSource := .gpio` are the model's values (DESIGN CHOICE,
unsafe for a statement about this record alone; assumption 1). -/
def Config.reference : Config where
  tickHz := 1000000
  lat := 1
  latComp := 1
  timerBits := 16
  tW1Min := 2
  tW0Min := 29
  tR0Ext := 29
  tRstMin := 199
  tIdle := 14
  tPres := 149
  skip := false
  debugStrobe := false
  edgeSource := .gpio
  cmdDiscover := suggestedDiscover

end Sys2Proof
end

