-- ==== Sys2Proof/Syntax.lean ====
section
/-! DEFINITION. The operations of the block: one constructor per row of spec/opcode_table.json, in the table's order.
The operands are the rows' free bits, already turned into names: `k` is key bit 5 (SKIP), `b : Band` the band code. -/

namespace Sys2Proof

/-- The five bands of `lowTicks` (30_encoding R82), codes 0 to 4. -/
inductive Band where
  | bandZ
  | bandA
  | bandB
  | bandC
  | bandD
deriving DecidableEq, Repr

/-- What a command byte selects (30_encoding R88). -/
inductive Command where
  | readIdentity
  | discover
  | other
deriving DecidableEq, Repr

/-- One operation: a row of spec/opcode_table.json. -/
inductive Instr where
  -- F-PULSE: one master low pulse (30_encoding R84)
  | glitch (b : Band)                        -- 10000b
  | write1Short (b : Band)                   -- 00000b
  | write1BandB (k : Bool)                   -- s00010
  | write0 (k : Bool)                        -- s00011
  | write0Reset (k : Bool)                   -- s00100
  | read1 (k : Bool) (b : Band)              -- s100bb
  | read1Reset (k : Bool)                    -- s10100
  | glitchFast                               -- 111000
  | read0BandZ                               -- 011000
  | read0BandA (k : Bool)                    -- s11001
  | read0BandBC (k : Bool) (b : Band)        -- s1101b
  | read0Reset (k : Bool)                    -- s11100
  | armedNotER (k : Bool) (b : Band)         -- s01bbb
  -- F-CMD8: a complete command byte (30_encoding R88)
  | readIdentity
  | discover
  | cmdOther (c : Byte)
  -- compounds (30_encoding R90, R91)
  | id64
  | triplet (w : Bool)
  -- F-ENGINE (41_protocol_engine)
  | onReset
  | onWriteBit (bit : Bool)
  | onWriteBitResetReceived (bit : Bool)
  | onWriteBitDiscover (bit : Bool)
  | onWriteBitIdleOrReportIdentity (bit : Bool)
  | onReadBitRequested
  | onReadBitReportIdentity
  | onReadBitDiscover
  | onReadBitIdleOrResetReceived
  | switchToReadMode
  | deferredSwitchToWrite
  | advanceCursor
  -- F-HANDLER (40_pulse_classifier R126 to R129)
  | rearm
  | resetFinalisation
  | reset
  | handlerExit
  -- F-HW (42_hw_interface R201 to R211)
  | setInputMode
  | setDrivenLow
  | readLevel
  | timerStart
  | timerStop
  | timerResetToZero
  | timerReadTicks
  | timerOverflowIndicator
  | configureFallingEdge (src : EdgeSource)
  | clearPendingFlag
  | enableGlobalInterrupts
deriving DecidableEq, Repr

end Sys2Proof
end

