-- ==== Sys2Proof/WellFormed.lean ====
section
/-! DEFINITION. Which operands a row of the opcode table admits. `disc` is the parameter CMD_DISCOVER. -/

namespace Sys2Proof

/-- Operand checks: the bands a pulse row covers (30_encoding R84), the bytes CMD_OTHER covers (R88: the values other
than 0x33 and CMD_DISCOVER), and CMD_DISCOVER different from 0x33 for DISCOVER to have a byte of its own (R8). -/
def Instr.wellFormed (disc : Byte) : Instr → Bool
  | .glitch b => b == .bandZ || b == .bandA
  | .write1Short b => b == .bandZ || b == .bandA
  | .read1 _ b => b != .bandD
  | .read0BandBC _ b => b == .bandB || b == .bandC
  | .discover => disc != cmdReadIdentity
  | .cmdOther c => c != cmdReadIdentity && c != disc
  | .write1BandB _ => true
  | .write0 _ => true
  | .write0Reset _ => true
  | .read1Reset _ => true
  | .glitchFast => true
  | .read0BandZ => true
  | .read0BandA _ => true
  | .read0Reset _ => true
  | .armedNotER _ _ => true
  | .readIdentity => true
  | .id64 => true
  | .triplet _ => true
  | .onReset => true
  | .onWriteBit _ => true
  | .onWriteBitResetReceived _ => true
  | .onWriteBitDiscover _ => true
  | .onWriteBitIdleOrReportIdentity _ => true
  | .onReadBitRequested => true
  | .onReadBitReportIdentity => true
  | .onReadBitDiscover => true
  | .onReadBitIdleOrResetReceived => true
  | .switchToReadMode => true
  | .deferredSwitchToWrite => true
  | .advanceCursor => true
  | .rearm => true
  | .resetFinalisation => true
  | .reset => true
  | .handlerExit => true
  | .setInputMode => true
  | .setDrivenLow => true
  | .readLevel => true
  | .timerStart => true
  | .timerStop => true
  | .timerResetToZero => true
  | .timerReadTicks => true
  | .timerOverflowIndicator => true
  | .configureFallingEdge _ => true
  | .clearPendingFlag => true
  | .enableGlobalInterrupts => true

end Sys2Proof
end

