-- ==== Sys2Proof/Decode.lean ====
section
/-! DEFINITION. Decoding and encoding.

A pulse is decoded by its six-bit key (30_encoding R83, R84), a command byte by its value (R88). The rows of the
opcode table that have no encoding in the spec get operation numbers of the model's own (assumption 9): an operation
word is two bytes, first the code, then a format number.

  format 0  a bare byte as the table numbers it: 0x33, CMD_DISCOVER and every byte from 0x40 up are command bytes,
            any other byte is a pulse key (assumption 10)
  format 1  F-PULSE: the key in bits 5..0, bits 7..6 zero
  format 2  F-CMD8: the command byte
  format 3  F-ID64: code 0
  format 4  F-TRIPLET: code 0 or 1, the master's choice
  format 5, 6, 7  F-ENGINE, F-HANDLER, F-HW: twice the row's place in its format, plus the one-bit operand if any -/

namespace Sys2Proof

/-- Why bytes are no operation. -/
inductive DecodeError where
  /-- an operation word has two bytes -/
  | length (n : Nat)
  /-- band codes 5 to 7 do not occur (30_encoding R82) -/
  | noSuchBand (key : Key)
  /-- a key has six bits (30_encoding R83) -/
  | notAKey (code : Byte)
  /-- no row has this operation number -/
  | noSuchOperation (format code : Byte)
deriving DecidableEq, Repr

/-! ### Bands and keys -/

/-- The band of a measured low time (30_encoding R82). -/
def bandOf (c : Config) (lowTicks : Nat) : Band :=
  if lowTicks = 0 then .bandZ
  else if lowTicks < c.tW1Min then .bandA
  else if lowTicks < c.tW0Min then .bandB
  else if lowTicks < c.tRstMin then .bandC
  else .bandD

/-- The band's code, key[2:0] (30_encoding R82). -/
def bandCode : Band → BitVec 3
  | .bandZ => 0#3
  | .bandA => 1#3
  | .bandB => 2#3
  | .bandC => 3#3
  | .bandD => 4#3

/-- The band with a given code; codes 5 to 7 do not occur. -/
def bandOfCode (code : BitVec 3) : Option Band :=
  match code.toNat with
  | 0 => some .bandZ
  | 1 => some .bandA
  | 2 => some .bandB
  | 3 => some .bandC
  | 4 => some .bandD
  | _ => none

/-- The classification key: SKIP, ER, armed, band code from bit 5 down to bit 0 (30_encoding R83). -/
def pulseKey (skip er armed : Bool) (b : Band) : Key :=
  BitVec.ofBool skip ++ BitVec.ofBool er ++ BitVec.ofBool armed ++ bandCode b

/-- The decode table of 30_encoding R84. -/
def decodeKey (key : Key) : Except DecodeError Instr :=
  let skip := key.getLsbD 5
  let er := key.getLsbD 4
  let armed := key.getLsbD 3
  match bandOfCode (key.extractLsb' 0 3) with
  | none => .error (.noSuchBand key)
  | some b =>
    match armed, er, b with
    | true, false, _ => .ok (.armedNotER skip b)
    | true, true, .bandZ => .ok (if skip then .glitchFast else .read0BandZ)
    | true, true, .bandA => .ok (.read0BandA skip)
    | true, true, .bandB => .ok (.read0BandBC skip .bandB)
    | true, true, .bandC => .ok (.read0BandBC skip .bandC)
    | true, true, .bandD => .ok (.read0Reset skip)
    | false, true, .bandD => .ok (.read1Reset skip)
    | false, true, _ => .ok (.read1 skip b)
    | false, false, .bandZ => .ok (if skip then .glitch .bandZ else .write1Short .bandZ)
    | false, false, .bandA => .ok (if skip then .glitch .bandA else .write1Short .bandA)
    | false, false, .bandB => .ok (.write1BandB skip)
    | false, false, .bandC => .ok (.write0 skip)
    | false, false, .bandD => .ok (.write0Reset skip)

/-! ### Command bytes -/

/-- Which command an accumulated byte is (30_encoding R88, 41_protocol_engine R164 to R166): 0x33 is tested first. -/
def commandOf (disc c : Byte) : Command :=
  if c = cmdReadIdentity then .readIdentity
  else if c = disc then .discover
  else .other

/-- The F-CMD8 rows. -/
def decodeCommand (disc c : Byte) : Instr :=
  match commandOf disc c with
  | .readIdentity => .readIdentity
  | .discover => .discover
  | .other => .cmdOther c

/-! ### Operation words -/

/-- Format 1: a key, in a byte. -/
def decodePulseByte (code : Byte) : Except DecodeError Instr :=
  if code.toNat < 64 then decodeKey (code.setWidth 6) else .error (.notAKey code)

/-- Format 0: a byte as spec/opcode_table.json numbers it. -/
def decodeBareByte (disc code : Byte) : Except DecodeError Instr :=
  if code = cmdReadIdentity ∨ code = disc ∨ 64 ≤ code.toNat then .ok (decodeCommand disc code)
  else decodePulseByte code

/-- Format 5: the F-ENGINE rows in the table's order. -/
def decodeEngine (code : Byte) : Except DecodeError Instr :=
  match code.toNat with
  | 0 => .ok .onReset
  | 2 => .ok (.onWriteBit false)
  | 3 => .ok (.onWriteBit true)
  | 4 => .ok (.onWriteBitResetReceived false)
  | 5 => .ok (.onWriteBitResetReceived true)
  | 6 => .ok (.onWriteBitDiscover false)
  | 7 => .ok (.onWriteBitDiscover true)
  | 8 => .ok (.onWriteBitIdleOrReportIdentity false)
  | 9 => .ok (.onWriteBitIdleOrReportIdentity true)
  | 10 => .ok .onReadBitRequested
  | 12 => .ok .onReadBitReportIdentity
  | 14 => .ok .onReadBitDiscover
  | 16 => .ok .onReadBitIdleOrResetReceived
  | 18 => .ok .switchToReadMode
  | 20 => .ok .deferredSwitchToWrite
  | 22 => .ok .advanceCursor
  | _ => .error (.noSuchOperation 5#8 code)

/-- Format 6: the F-HANDLER rows in the table's order. -/
def decodeHandler (code : Byte) : Except DecodeError Instr :=
  match code.toNat with
  | 0 => .ok .rearm
  | 2 => .ok .resetFinalisation
  | 4 => .ok .reset
  | 6 => .ok .handlerExit
  | _ => .error (.noSuchOperation 6#8 code)

/-- Format 7: the F-HW rows in the table's order. -/
def decodeHw (code : Byte) : Except DecodeError Instr :=
  match code.toNat with
  | 0 => .ok .setInputMode
  | 2 => .ok .setDrivenLow
  | 4 => .ok .readLevel
  | 6 => .ok .timerStart
  | 8 => .ok .timerStop
  | 10 => .ok .timerResetToZero
  | 12 => .ok .timerReadTicks
  | 14 => .ok .timerOverflowIndicator
  | 16 => .ok (.configureFallingEdge .gpio)
  | 17 => .ok (.configureFallingEdge .comparator)
  | 18 => .ok .clearPendingFlag
  | 20 => .ok .enableGlobalInterrupts
  | _ => .error (.noSuchOperation 7#8 code)

/-- An operation word by its format number. -/
def decodeFormat (disc format code : Byte) : Except DecodeError Instr :=
  match format.toNat with
  | 0 => decodeBareByte disc code
  | 1 => decodePulseByte code
  | 2 => .ok (decodeCommand disc code)
  | 3 => if code = 0#8 then .ok .id64 else .error (.noSuchOperation 3#8 code)
  | 4 =>
    if code = 0#8 then .ok (.triplet false)
    else if code = 1#8 then .ok (.triplet true)
    else .error (.noSuchOperation 4#8 code)
  | 5 => decodeEngine code
  | 6 => decodeHandler code
  | 7 => decodeHw code
  | _ => .error (.noSuchOperation format code)

/-- The decoder, total on any bytes: two bytes, the code at the lower address, then the format. -/
def decode (disc : Byte) : List Byte → Except DecodeError Instr
  | [code, format] => decodeFormat disc format code
  | bytes => .error (.length bytes.length)

/-! ### The encoder -/

/-- The key of an F-PULSE row (30_encoding R84), 0 for any other row. -/
def encodeKey : Instr → Key
  | .glitch b => pulseKey true false false b
  | .write1Short b => pulseKey false false false b
  | .write1BandB k => pulseKey k false false .bandB
  | .write0 k => pulseKey k false false .bandC
  | .write0Reset k => pulseKey k false false .bandD
  | .read1 k b => pulseKey k true false b
  | .read1Reset k => pulseKey k true false .bandD
  | .glitchFast => pulseKey true true true .bandZ
  | .read0BandZ => pulseKey false true true .bandZ
  | .read0BandA k => pulseKey k true true .bandA
  | .read0BandBC k b => pulseKey k true true b
  | .read0Reset k => pulseKey k true true .bandD
  | .armedNotER k b => pulseKey k false true b
  | _ => 0#6

/-- The code byte of an operation number: twice the row's place in its format, plus the operand bit. -/
def operationCode (place : Nat) (bit : Bool) : Byte := BitVec.ofNat 8 (2 * place + bit.toNat)

/-- The two bytes of an operation word, code first. -/
def encode (disc : Byte) (i : Instr) : List Byte :=
  match i with
  | .glitch _ | .write1Short _ | .write1BandB _ | .write0 _ | .write0Reset _ | .read1 _ _ | .read1Reset _
  | .glitchFast | .read0BandZ | .read0BandA _ | .read0BandBC _ _ | .read0Reset _ | .armedNotER _ _ =>
    [(encodeKey i).setWidth 8, 1#8]
  | .readIdentity => [cmdReadIdentity, 2#8]
  | .discover => [disc, 2#8]
  | .cmdOther c => [c, 2#8]
  | .id64 => [0#8, 3#8]
  | .triplet w => [operationCode 0 w, 4#8]
  | .onReset => [operationCode 0 false, 5#8]
  | .onWriteBit bit => [operationCode 1 bit, 5#8]
  | .onWriteBitResetReceived bit => [operationCode 2 bit, 5#8]
  | .onWriteBitDiscover bit => [operationCode 3 bit, 5#8]
  | .onWriteBitIdleOrReportIdentity bit => [operationCode 4 bit, 5#8]
  | .onReadBitRequested => [operationCode 5 false, 5#8]
  | .onReadBitReportIdentity => [operationCode 6 false, 5#8]
  | .onReadBitDiscover => [operationCode 7 false, 5#8]
  | .onReadBitIdleOrResetReceived => [operationCode 8 false, 5#8]
  | .switchToReadMode => [operationCode 9 false, 5#8]
  | .deferredSwitchToWrite => [operationCode 10 false, 5#8]
  | .advanceCursor => [operationCode 11 false, 5#8]
  | .rearm => [operationCode 0 false, 6#8]
  | .resetFinalisation => [operationCode 1 false, 6#8]
  | .reset => [operationCode 2 false, 6#8]
  | .handlerExit => [operationCode 3 false, 6#8]
  | .setInputMode => [operationCode 0 false, 7#8]
  | .setDrivenLow => [operationCode 1 false, 7#8]
  | .readLevel => [operationCode 2 false, 7#8]
  | .timerStart => [operationCode 3 false, 7#8]
  | .timerStop => [operationCode 4 false, 7#8]
  | .timerResetToZero => [operationCode 5 false, 7#8]
  | .timerReadTicks => [operationCode 6 false, 7#8]
  | .timerOverflowIndicator => [operationCode 7 false, 7#8]
  | .configureFallingEdge src => [operationCode 8 (src == .comparator), 7#8]
  | .clearPendingFlag => [operationCode 9 false, 7#8]
  | .enableGlobalInterrupts => [operationCode 10 false, 7#8]

/-! ### The table's own words -/

/-- The bytes of a table word: the code in bits 7..0, the format in bits 15..8, which are 0 in every row of the
table, so that the word is a bare byte (format 0). -/
def tableBytes (nbits w : Nat) : List Byte :=
  [BitVec.ofNat 8 (w % 2 ^ nbits), BitVec.ofNat 8 (w % 2 ^ nbits / 256)]

/-- The operation the decoder reads from a word of the opcode table, with DISCOVER at the table's byte 0xF0. -/
def decodeTableWord (nbits w : Nat) : Option Instr :=
  match decode suggestedDiscover (tableBytes nbits w) with
  | .ok i => some i
  | .error _ => none

end Sys2Proof
end

