-- ==== Sys2Proof/Machine/State.lean ====
section
/-! DEFINITION. The state of the block as plain data (10_state R20), the reasons a step can stop, and the state after
power-on (R41). The session state of R24 to R35 is one structure, the device state of R21, R22, R36 another: R160 says
the protocol engine touches the first alone.

A state stands at the BEGINNING of a tick `t`: every register holds its value in tick `t` and `lineNow` is the sample
`line(t)`; the handler's statements of that tick have not run yet (assumption 4). -/

namespace Sys2Proof.Machine

/-- CommandState, the top-level protocol state machine (10_state R31). No numeric encoding exists (D30). -/
inductive CommandState where
  | idle
  | resetReceived
  | reportIdentity
  | discover
deriving DecidableEq, Repr

/-- The position of the handler (10_state R37). -/
inductive Phase where
  /-- P_WAIT: not running, waiting for the pending flag -/
  | wait
  /-- P_LAT: dispatch latency -/
  | lat
  /-- P_WPOLL: write-mode poll -/
  | wPoll
  /-- P_R0HOLD: holding the line low for Read-0 -/
  | r0Hold
  /-- P_RSTPOLL: Reset finalisation poll -/
  | rstPoll
  /-- P_RELWAIT: waiting for the master to release after a Reset -/
  | relWait
  /-- P_IDLEHOLD: post-reset idle -/
  | idleHold
  /-- P_PRESENCE: presence pulse -/
  | presence
deriving DecidableEq, Repr

/-- Classification result of a pulse (10_state R23). -/
inductive BusEvent where
  | write0
  | write1
  | read0
  | read1
  | reset
  | glitch
deriving DecidableEq, Repr

/-- What the outside world does next (assumptions 2 and 3). -/
inductive Input where
  /-- tick level: one tick passes; `low` is the master's drive `m` in the tick that begins (10_state R21) -/
  | tick (low : Bool)
  /-- event level: one well-formed master pulse with this `lowTicks` (40_pulse_classifier R130, R131) -/
  | pulse (lowTicks : Nat)
  /-- a bench calls one operation of the opcode table by its operation word (assumption 9) -/
  | word (bytes : List Byte)
  /-- the `por` port (42_hw_interface R213): power-on; `low` is the master's drive in tick 0 -/
  | por (low : Bool)
deriving DecidableEq, Repr

/-- The identity store: (address, byte) pairs in the canonical form of `Memory.wf`. -/
abbrev Memory := List Host.Cell

/-- The Shared Session State (10_state R20, R24 to R35). -/
structure Session where
  /-- ER (R25) -/
  expectingRead : Bool
  /-- DSW (R26) -/
  deferredSwitchToWrite : Bool
  /-- PR (R27) -/
  possibleReset : Bool
  /-- TO (R28) -/
  timerOverflow : Bool
  /-- INV (R29) -/
  invertNextReadBit : Bool
  /-- PBV (R30) -/
  pendingBitValue : Bool
  /-- CS (R31) -/
  commandState : CommandState
  /-- ByteCursor.byteIndex, 0 to 7 (R32) -/
  byteIndex : Fin 8
  /-- ByteCursor.bitMask, one-hot (R32) -/
  bitMask : Byte
  /-- ACC (R34) -/
  accumulatedCommand : Byte
  /-- armed (R35) -/
  read0Armed : Bool
deriving DecidableEq, Repr

/-- The device state (10_state R21, R22, R36) with the block's line sample and strobe output (42_hw_interface R213). -/
structure Device where
  /-- `drive_low` (R21): the slave drives the line low; also the output port `line_drive_low` -/
  driveLow : Bool
  /-- the Timer count (R22), below 2^TIMER_BITS (assumption 7) -/
  tau : Nat
  /-- R22 -/
  timerRunning : Bool
  /-- R36 -/
  irqPending : Bool
  /-- R36 -/
  irqEnable : Bool
  /-- the line in the previous tick (R36) -/
  prevLine : Bool
  /-- `line(t)` of the current tick: true = high (R21, R203) -/
  lineNow : Bool
  /-- `clr(t)`: `clear_pending()` was executed in the current tick (R36) -/
  clearNow : Bool
  /-- the output port `debug_strobe` (40_pulse_classifier R132) -/
  debugStrobe : Bool
deriving DecidableEq, Repr

/-- The whole state. -/
structure State where
  /-- the configuration of the run, written by nothing (10_state R38; assumption 1) -/
  cfg : Config
  /-- Identity[0..8) (20_memory R60) -/
  mem : Memory
  session : Session
  device : Device
  /-- R37 -/
  phase : Phase
  /-- `lat_count` (R37; assumption 5) -/
  latCount : Nat
  /-- the model's own: the BusEvents of the latest pass, an observation tap (R23, R213; assumption 25) -/
  events : List BusEvent
  /-- the model's own: `lowTicks` of the pulse being taken at event level (30_encoding R81; assumption 6) -/
  lowTicks : Nat
  /-- the model's own: the bit returned by the last operation word that returns one (assumption 24) -/
  retBit : Bool
  /-- the model's own: the count returned by the last `readTicks` operation word (assumption 24) -/
  retTicks : Nat
  /-- the model's own: what the outside world does next, oldest first (assumption 2) -/
  input : List Input
deriving DecidableEq, Repr

/-- Faults: none. The hardware raises no exception, fault or trap (60_exceptions R220) and no access can fault
(20_memory R63), so nothing raises one. -/
inductive Fault
deriving DecidableEq, Repr

/-- Why a step has no meaning. No operation of the opcode table is refused: `exec` never answers one of these. -/
inductive Refusal where
  /-- the operation has no meaning in this model; raised by no arm (every row is modelled); safe -/
  | notModelled (mnemonic : String)
  /-- raised by `step` when the configuration breaks 00_scope R8, which says a model refuses it (U9); safe -/
  | illegalConfiguration
  /-- raised by `step` for an event-level pulse in a state where 40_pulse_classifier R131 (b) gives it no meaning
  (93_implementation_defined U6: refuse); the tick level runs such a waveform; safe -/
  | stimulusNotWellFormed
  /-- raised by `step` for bytes that decode to no operation; safe -/
  | undecodable (reason : DecodeError)
deriving DecidableEq, Repr

/-! ### Power-on (10_state R41, column "Power-on") -/

/-- The session state after power-on. -/
def Session.powerOn : Session where
  expectingRead := false
  deferredSwitchToWrite := false
  possibleReset := false
  timerOverflow := false
  invertNextReadBit := false
  pendingBitValue := true
  commandState := .idle
  byteIndex := 0
  bitMask := 0x01#8
  accumulatedCommand := 0x00#8
  read0Armed := false

/-- The device state after power-on and boot, at the beginning of tick 0; `low` is the master's drive in tick 0, so
that the line's first sample makes no edge (R41, 70_reset_and_hazards R263). -/
def Device.powerOn (low : Bool) : Device where
  driveLow := false
  tau := 0
  timerRunning := false
  irqPending := false
  irqEnable := true
  prevLine := !low
  lineNow := !low
  clearNow := false
  debugStrobe := false

/-- Power-on of a block with a given configuration and identity store. -/
def State.powerOn (cfg : Config) (mem : Memory) (low : Bool) (input : List Input) : State where
  cfg := cfg
  mem := mem
  session := .powerOn
  device := .powerOn low
  phase := .wait
  latCount := 0
  events := []
  lowTicks := 0
  retBit := false
  retTicks := 0
  input := input

/-- The machine right after reset: power-on with the reference configuration (assumption 1), nothing listed in the
identity store (which then reads as REFCFG's IDENTITY, assumption 8), the line released in tick 0 (assumption 4), and
nothing in the input queue (assumption 2). -/
def State.reset : State := .powerOn .reference [] false []

end Sys2Proof.Machine
end

