-- ==== Sys2Proof/Machine/Memory.lean ====
section
/-! DEFINITION. The identity store (20_memory R60 to R65): eight read-only bytes at addresses 0 to 7, kept as a list of
(address, byte) pairs in one canonical form. The block only reads it; writing exists for provisioning, which happens
outside the block (42_hw_interface R212). -/

namespace Sys2Proof.Machine

/-- What an address that the store does not list reads as: the IDENTITY of REFCFG, the only contents the spec gives
(00_scope R9; assumption 8). -/
def unlistedByte (a : Nat) : Byte :=
  match a with
  | 0 => 0xAB#8
  | 1 => 0xCD#8
  | 2 => 0xEF#8
  | 3 => 0x01#8
  | 4 => 0x23#8
  | 5 => 0x45#8
  | 6 => 0x67#8
  | _ => 0x89#8

/-- The byte the store lists at an address. -/
def listedByte : Memory → Nat → Option Byte
  | [], _ => none
  | (x, b) :: r, a => if a = x then some b else listedByte r a

/-- Read one byte: addresses 0 to 7 exist, no other does (20_memory R60, R65). -/
def readByte (m : Memory) (a : Nat) : Option Byte :=
  if a < 8 then some ((listedByte m a).getD (unlistedByte a)) else none

/-- `Identity[i]` for a byte index, which is always an address that exists (20_memory R63). -/
def identityByte (m : Memory) (i : Fin 8) : Byte := (listedByte m i.val).getD (unlistedByte i.val)

/-- List a byte in canonical order, or drop the entry when it is what the address reads as unlisted. -/
def putByte : Memory → Nat → Byte → Memory
  | [], a, b => if b = unlistedByte a then [] else [(a, b)]
  | (x, c) :: r, a, b =>
    if a < x then (if b = unlistedByte a then (x, c) :: r else (a, b) :: (x, c) :: r)
    else if a = x then (if b = unlistedByte a then r else (a, b) :: r)
    else (x, c) :: putByte r a b

/-- Store one byte of the identity, for provisioning alone; an address beyond 7 does not exist. -/
def writeByte (m : Memory) (a : Nat) (b : Byte) : Option Memory :=
  if a < 8 then some (putByte m a b) else none

/-- The canonical form from an address on: addresses strictly rising, all existing, no entry equal to what the address
reads as unlisted. -/
def canonicalFrom : Nat → Memory → Bool
  | _, [] => true
  | lo, (a, b) :: r => decide (lo ≤ a) && decide (a < 8) && (b != unlistedByte a) && canonicalFrom (a + 1) r

/-- The canonical form. -/
def Memory.wf (m : Memory) : Bool := canonicalFrom 0 m

/-- The store provisioned with eight bytes, byte 0 first (42_hw_interface R212). -/
def provision (b0 b1 b2 b3 b4 b5 b6 b7 : Byte) : Memory :=
  putByte (putByte (putByte (putByte (putByte (putByte (putByte (putByte [] 0 b0) 1 b1) 2 b2) 3 b3) 4 b4) 5 b5) 6 b6) 7 b7

/-- The port `identity` (42_hw_interface R213): 64 bits, byte 0 in bits 7..0. -/
def identityPort (m : Memory) : BitVec 64 :=
  identityByte m 7 ++ identityByte m 6 ++ identityByte m 5 ++ identityByte m 4
    ++ identityByte m 3 ++ identityByte m 2 ++ identityByte m 1 ++ identityByte m 0

end Sys2Proof.Machine
end

