-- ==== Sys2Proof/Machine/Ops.lean ====
section
/-! DEFINITION. The named operations over the registers: the primitives of the hardware contract (42_hw_interface R201
to R211), and taking and leaving the one interrupt (60_exceptions R230, R231). -/

namespace Sys2Proof.Machine

/-! ### Lifting to the state -/

/-- Apply an operation to the device state. -/
def onDevice (f : Device → Device) (s : State) : State := { s with device := f s.device }

/-- Apply an operation to the session state. -/
def onSession (f : Session → Session) (s : State) : State := { s with session := f s.session }

/-- `emit X`: append a BusEvent to the pass's event list; it changes no state of the hardware
(40_pulse_classifier R113). -/
def emit (e : BusEvent) (s : State) : State := { s with events := s.events ++ [e] }

/-- The handler waits in a phase: `wait_tick` (40_pulse_classifier R111, R115). -/
def waitIn (p : Phase) (s : State) : State := { s with phase := p }

/-! ### Line driver -/

/-- `setInputMode()`, `release()` (R201). -/
def Device.setInputMode (d : Device) : Device := { d with driveLow := false }

/-- `setDrivenLow()`, `drive_low()` (R202). -/
def Device.setDrivenLow (d : Device) : Device := { d with driveLow := true }

/-- The debug strobe of 40_pulse_classifier R132. -/
def Device.strobe (d : Device) : Device := { d with debugStrobe := true }

/-! ### Timer -/

/-- `start()` (R204). -/
def Device.timerStart (d : Device) : Device := { d with timerRunning := true }

/-- `stop()` (R205). -/
def Device.timerStop (d : Device) : Device := { d with timerRunning := false }

/-- `resetToZero()` (R206): the count alone. -/
def Device.timerReset (d : Device) : Device := { d with tau := 0 }

/-! ### Edge interrupt -/

/-- `clearPendingFlag()`, `clear_pending()` (R210): takes effect at the end of the tick. -/
def Device.clearPending (d : Device) : Device := { d with clearNow := true }

/-- `enableGlobalInterrupts()` (R211). -/
def Device.enableInterrupts (d : Device) : Device := { d with irqEnable := true }

/-- The interrupt is taken in this tick (60_exceptions R228). -/
def interruptTaken (s : State) : Bool := s.phase == .wait && s.device.irqPending && s.device.irqEnable

/-- Taking the interrupt (60_exceptions R230, 40_pulse_classifier R112): nothing is saved; the pending flag is cleared
and the dispatch latency begins. The event list of the new pass is empty. -/
def takeInterrupt (s : State) : State :=
  { s with device := s.device.clearPending, phase := .lat, latCount := 0, events := [] }

/-- Returning from the handler (60_exceptions R231, 42_hw_interface R205): the Timer is stopped and the handler is no
longer running; nothing is restored. -/
def returnFromInterrupt (s : State) : State := { s with device := s.device.timerStop, phase := .wait }

end Sys2Proof.Machine
end

