-- ==== Sys2Proof/Machine/Operands.lean ====
section
/-! DEFINITION. What an operation can read: the identity bit at the cursor, the line, the Timer; and the command the
accumulated byte spells. -/

namespace Sys2Proof.Machine

/-- `idbit()` (20_memory R61): the bit of `Identity[byteIndex]` under the mask. -/
def idbit (m : Memory) (x : Session) : Bool := decide (identityByte m x.byteIndex &&& x.bitMask ≠ 0#8)

/-- `line()` (42_hw_interface R203): the sample of the current tick. -/
def line (s : State) : Bool := s.device.lineNow

/-- `readTicks()`, `tau` (42_hw_interface R207). -/
def ticks (s : State) : Nat := s.device.tau

/-- The line level made by the master's drive and the slave's (10_state R21): low if either pulls. -/
def wiredAnd (masterLow driveLow : Bool) : Bool := !(masterLow || driveLow)

/-- A count as the Timer holds it: modulo 2^TIMER_BITS (10_state R22). -/
def timerValue (c : Config) (n : Nat) : Nat := n % 2 ^ c.timerBits

end Sys2Proof.Machine
end

