-- ==== Sys2Proof/Machine/Flags.lean ====
section
/-! DEFINITION. Every flag the spec computes: the fast-path flag (10_state R35), the falling edge and the pending flag
(R36), and the Timer's wrap (R22, R28). -/

namespace Sys2Proof.Machine

/-- `armed <- (ER = 1 and PBV = 0)` (10_state R35, 40_pulse_classifier R129). -/
def armedNext (x : Session) : Bool := x.expectingRead && !x.pendingBitValue

/-- `edge(t)`: the line fell (10_state R36). -/
def edgeNow (d : Device) : Bool := d.prevLine && !d.lineNow

/-- `irq_pending(t+1)`: an edge wins over a clear in the same tick (10_state R36, 60_exceptions R229). -/
def irqNext (d : Device) : Bool := (d.irqPending && !d.clearNow) || edgeNow d

/-- The running Timer wraps at the end of this tick (10_state R22, 42_hw_interface R208). -/
def timerWraps (c : Config) (d : Device) : Bool := d.timerRunning && decide (2 ^ c.timerBits ≤ d.tau + 1)

/-- The Timer's count in the next tick (10_state R22, 41_protocol_engine R175 a). -/
def tauNext (c : Config) (d : Device) : Nat := if d.timerRunning then timerValue c (d.tau + 1) else d.tau

/-- The overflow indicator (42_hw_interface R208): a wrap sets TO, which stays until the handler clears it. -/
def noteOverflow (s : State) : State :=
  onSession (fun x => { x with timerOverflow := x.timerOverflow || timerWraps s.cfg s.device }) s

end Sys2Proof.Machine
end

