-- ==== Sys2Proof/Machine/Engine.lean ====
section
/-! DEFINITION. The Bit/Byte Protocol Engine (spec/41_protocol_engine.md): procedures over the session state, the
identity store and CMD_DISCOVER alone (R160), each in zero time; and the meanings of the F-ENGINE and F-CMD8 rows. -/

namespace Sys2Proof.Machine

/-! ### Procedures -/

/-- `advanceCursor()` (R176). -/
def Session.advanceCursor (x : Session) : Session :=
  if x.bitMask = 0x80#8 then
    if x.byteIndex = 7 then { x with bitMask := 0x01#8, byteIndex := 0, commandState := .idle }
    else { x with bitMask := 0x01#8, byteIndex := x.byteIndex + 1 }
  else { x with bitMask := x.bitMask <<< 1 }

/-- The deferred switch to write mode is requested (R174): `DSW <- 1`; `rearm()` applies it. -/
def Session.deferSwitchToWrite (x : Session) : Session := { x with deferredSwitchToWrite := true }

/-- `reportBit()` (R170): the bit returned, and the session after. -/
def Session.reportBit (m : Memory) (x : Session) : Bool × Session := (idbit m x, x.advanceCursor)

/-- `discoverBit()` (R171). -/
def Session.discoverBit (m : Memory) (x : Session) : Bool × Session :=
  if x.invertNextReadBit then
    (!(idbit m x), Session.deferSwitchToWrite { x with invertNextReadBit := false })
  else (idbit m x, { x with invertNextReadBit := true })

/-- The constant 1 of Idle and ResetReceived (R172). -/
def Session.passiveBit (x : Session) : Bool × Session := (true, x)

/-- `onReadBitRequested()` (R169). -/
def Session.onReadBitRequested (m : Memory) (x : Session) : Bool × Session :=
  match x.commandState with
  | .reportIdentity => x.reportBit m
  | .discover => x.discoverBit m
  | .idle => x.passiveBit
  | .resetReceived => x.passiveBit

/-- `PBV <- onReadBitRequested()`. -/
def Session.prepareReadBit (m : Memory) (x : Session) : Session :=
  let r := x.onReadBitRequested m
  { r.2 with pendingBitValue := r.1 }

/-- `switchToReadMode()` (R173). -/
def Session.switchToReadMode (m : Memory) (x : Session) : Session :=
  Session.prepareReadBit m { x with expectingRead := true, deferredSwitchToWrite := false }

/-- Command READ_IDENTITY (R164). -/
def Session.startReport (m : Memory) (x : Session) : Session :=
  Session.switchToReadMode m { x with commandState := .reportIdentity, byteIndex := 0, bitMask := 0x01#8 }

/-- Command DISCOVER (R165). -/
def Session.startDiscover (m : Memory) (x : Session) : Session :=
  Session.switchToReadMode m
    { x with commandState := .discover, byteIndex := 0, bitMask := 0x01#8, invertNextReadBit := false }

/-- Unknown command (R166). -/
def Session.unknownCommand (x : Session) : Session := { x with commandState := .idle }

/-- `dispatch()` on the accumulated byte (R163 to R166). -/
def Session.dispatch (m : Memory) (disc : Byte) (x : Session) : Session :=
  match commandOf disc x.accumulatedCommand with
  | .readIdentity => x.startReport m
  | .discover => x.startDiscover m
  | .other => x.unknownCommand

/-- `accumulate(bit)`: `onWriteBit` in ResetReceived (R163). -/
def Session.accumulate (m : Memory) (disc : Byte) (bit : Bool) (x : Session) : Session :=
  let acc := if bit then x.accumulatedCommand ||| x.bitMask else x.accumulatedCommand
  if x.bitMask = 0x80#8 then
    Session.dispatch m disc { x with accumulatedCommand := acc, bitMask := 0x01#8 }
  else { x with accumulatedCommand := acc, bitMask := x.bitMask <<< 1 }

/-- `discoverWrite(bit)`: `onWriteBit` in Discover (R167). -/
def Session.discoverWrite (m : Memory) (bit : Bool) (x : Session) : Session :=
  if bit = idbit m x then Session.switchToReadMode m x.advanceCursor
  else { x with commandState := .idle }

/-- `onWriteBit(bit)` (R162, R168). -/
def Session.onWriteBit (m : Memory) (disc : Byte) (bit : Bool) (x : Session) : Session :=
  match x.commandState with
  | .resetReceived => x.accumulate m disc bit
  | .discover => x.discoverWrite m bit
  | .idle => x
  | .reportIdentity => x

/-- `onReset()` (R161). -/
def Session.onReset (x : Session) : Session :=
  { x with
    accumulatedCommand := 0x00#8
    byteIndex := 0
    bitMask := 0x01#8
    commandState := .resetReceived
    expectingRead := false
    deferredSwitchToWrite := false
    possibleReset := false
    invertNextReadBit := false }

/-! ### Called on the state -/

/-- The engine's `onReset()` on the state. -/
def engineReset (s : State) : State := onSession Session.onReset s

/-- The engine's `onWriteBit(bit)` on the state, after `PBV <- bit` (R162). -/
def engineWriteBit (bit : Bool) (s : State) : State :=
  onSession (fun x => Session.onWriteBit s.mem s.cfg.cmdDiscover bit { x with pendingBitValue := bit }) s

/-- A procedure that returns a bit, called by itself: the bit goes to the return port (assumption 24). -/
def returningBit (f : Session → Bool × Session) (s : State) : State :=
  { s with session := (f s.session).2, retBit := (f s.session).1 }

/-! ### Meanings: F-CMD8

Called by itself a row is its dispatch (assumption 29, DEDUCED). It leaves `read0Armed` as it was: the handler's exit, which
records it after the eighth bit on the wire (R129), is not part of the row (assumption 31, DESIGN CHOICE, unsafe). -/

/-- READ_IDENTITY (R164); `read0Armed` is not recorded (assumption 31, DESIGN CHOICE). -/
def execReadIdentity (s : State) : Host.Outcome State Fault Refusal :=
  .next (onSession (Session.startReport s.mem) s)

/-- DISCOVER (R165); `read0Armed` is not recorded (assumption 31, DESIGN CHOICE). -/
def execDiscover (s : State) : Host.Outcome State Fault Refusal :=
  .next (onSession (Session.startDiscover s.mem) s)

/-- CMD_OTHER (R166): all 254 bytes behave alike (30_encoding R89); `read0Armed` is not recorded (assumption 31, DESIGN
CHOICE). -/
def execCmdOther (_c : Byte) (s : State) : Host.Outcome State Fault Refusal :=
  .next (onSession Session.unknownCommand s)

/-! ### Meanings: F-ENGINE -/

/-- onReset (R161). -/
def execOnReset (s : State) : Host.Outcome State Fault Refusal := .next (engineReset s)

/-- onWriteBit (R162). -/
def execOnWriteBit (bit : Bool) (s : State) : Host.Outcome State Fault Refusal :=
  .next (onSession (Session.onWriteBit s.mem s.cfg.cmdDiscover bit) s)

/-- onWriteBit.ResetReceived (R163). -/
def execOnWriteBitResetReceived (bit : Bool) (s : State) : Host.Outcome State Fault Refusal :=
  .next (onSession (Session.accumulate s.mem s.cfg.cmdDiscover bit) s)

/-- onWriteBit.Discover (R167). -/
def execOnWriteBitDiscover (bit : Bool) (s : State) : Host.Outcome State Fault Refusal :=
  .next (onSession (Session.discoverWrite s.mem bit) s)

/-- onWriteBit.Idle_or_ReportIdentity (R168): nothing is written by the engine. -/
def execOnWriteBitIdleOrReportIdentity (_bit : Bool) (s : State) : Host.Outcome State Fault Refusal := .next s

/-- onReadBitRequested (R169). -/
def execOnReadBitRequested (s : State) : Host.Outcome State Fault Refusal :=
  .next (returningBit (Session.onReadBitRequested s.mem) s)

/-- onReadBitRequested.ReportIdentity (R170). -/
def execOnReadBitReportIdentity (s : State) : Host.Outcome State Fault Refusal :=
  .next (returningBit (Session.reportBit s.mem) s)

/-- onReadBitRequested.Discover (R171). -/
def execOnReadBitDiscover (s : State) : Host.Outcome State Fault Refusal :=
  .next (returningBit (Session.discoverBit s.mem) s)

/-- onReadBitRequested.Idle_or_ResetReceived (R172). -/
def execOnReadBitIdleOrResetReceived (s : State) : Host.Outcome State Fault Refusal :=
  .next (returningBit Session.passiveBit s)

/-- switchToReadMode (R173). -/
def execSwitchToReadMode (s : State) : Host.Outcome State Fault Refusal :=
  .next (onSession (Session.switchToReadMode s.mem) s)

/-- deferredSwitchToWrite (R174; assumption 17). -/
def execDeferredSwitchToWrite (s : State) : Host.Outcome State Fault Refusal :=
  .next (onSession Session.deferSwitchToWrite s)

/-- advanceCursor (R176). -/
def execAdvanceCursor (s : State) : Host.Outcome State Fault Refusal :=
  .next (onSession Session.advanceCursor s)

end Sys2Proof.Machine
end

