-- ==== Sys2Proof/Machine/Parameters.lean ====
section
/-! DEFINITION. The constraints on a configuration (00_scope R8) and the assembly of thresholds (30_encoding R86). -/

namespace Sys2Proof.Machine

/-- 00_scope R8, every constraint: a model refuses a configuration that breaks one. -/
def configLegal (c : Config) : Bool :=
  decide (1 ≤ c.lat)
    && decide (1 ≤ c.tW1Min) && decide (c.tW1Min < c.tW0Min) && decide (c.tW0Min < c.tRstMin)
    && decide (c.tRstMin < 2 ^ c.timerBits)
    && decide (1 ≤ c.tR0Ext) && decide (c.tR0Ext < c.tRstMin)
    && decide (1 ≤ c.tIdle) && decide (c.tIdle < 2 ^ c.timerBits)
    && decide (1 ≤ c.tPres) && decide (c.tPres < 2 ^ c.timerBits)
    && (c.cmdDiscover != cmdReadIdentity)

/-- `us(x) = floor(x * TICK_HZ / 1_000_000)` (00_scope R7). -/
def microseconds (tickHz x : Nat) : Nat := x * tickHz / 1000000

/-- The six thresholds at their nominal microseconds, each less LAT_COMP (30_encoding R86): the other parameters are
kept. -/
def withNominalThresholds (c : Config) : Config :=
  { c with
    tW1Min := microseconds c.tickHz 3 - c.latComp
    tW0Min := microseconds c.tickHz 30 - c.latComp
    tR0Ext := microseconds c.tickHz 30 - c.latComp
    tRstMin := microseconds c.tickHz 200 - c.latComp
    tIdle := microseconds c.tickHz 15 - c.latComp
    tPres := microseconds c.tickHz 150 - c.latComp }

end Sys2Proof.Machine
end

