-- ==== Sys2Proof/Machine/Handler.lean ====
section
/-! DEFINITION. The event handler at tick level (40_pulse_classifier R110 to R129): one definition per position of the
procedure of R113, each running the statements of the current tick until the handler waits or returns; and the meanings
of the F-HANDLER rows. -/

namespace Sys2Proof.Machine

/-! ### Steps of a pass -/

/-- `rearm()` (R126). -/
def Session.rearm (m : Memory) (x : Session) : Session :=
  if x.deferredSwitchToWrite then { x with expectingRead := false, deferredSwitchToWrite := false }
  else x.prepareReadBit m

/-- A read slot has been delivered: `emit`, `rearm()`, `PR <- 1` (R124, R125). -/
def readDelivered (e : BusEvent) (s : State) : State :=
  onSession (fun x => { x.rearm s.mem with possibleReset := true }) (emit e s)

/-- `PBV <- 0; PR <- 1; emit WRITE0; onWriteBit(0)` (R123). -/
def write0Delivered (s : State) : State :=
  engineWriteBit false (emit .write0 (onSession (fun x => { x with possibleReset := true }) s))

/-- `PBV <- 1; emit WRITE1; onWriteBit(1)` (R122). -/
def write1Delivered (s : State) : State := engineWriteBit true (emit .write1 s)

/-- `armed <- (ER = 1 and PBV = 0)` (R129). -/
def recordArmed (s : State) : State := onSession (fun x => { x with read0Armed := armedNext x }) s

/-- Handler exit (R129): record the fast-path flag, stop the Timer, return. -/
def exitHandler (s : State) : State := returnFromInterrupt (recordArmed s)

/-- A pass classified as a glitch returns with no session state changed (R120, R121). -/
def exitGlitch (s : State) : State := returnFromInterrupt (emit .glitch s)

/-! ### The Reset sequence (R128) -/

/-- `while tau < T_PRES: wait_tick`; then `release(); TO <- 0; clear_pending()` and the handler exit. -/
def presencePoll (s : State) : State :=
  if ticks s < s.cfg.tPres then waitIn .presence s
  else
    exitHandler (onDevice Device.clearPending (onSession (fun x => { x with timerOverflow := false })
      (onDevice Device.setInputMode s)))

/-- `while tau < T_IDLE: wait_tick`; then `drive_low(); timer_reset()`. -/
def idlePoll (s : State) : State :=
  if ticks s < s.cfg.tIdle then waitIn .idleHold s
  else presencePoll (onDevice Device.timerReset (onDevice Device.setDrivenLow s))

/-- `while line() = 0: wait_tick`; then `timer_reset()`. -/
def releasePoll (s : State) : State :=
  if line s then idlePoll (onDevice Device.timerReset s) else waitIn .relWait s

/-- RESET (R128). -/
def resetSequence (s : State) : State := releasePoll (engineReset (emit .reset s))

/-! ### Reset finalisation (R127) -/

/-- The poll of Reset finalisation; `released` is what follows when the line releases before the threshold. -/
def finalisationPoll (released : State → State) (s : State) : State :=
  if s.session.timerOverflow || decide (s.cfg.tRstMin ≤ ticks s) then
    resetSequence (onSession (fun x => { x with possibleReset := false }) s)
  else if line s then released (onSession (fun x => { x with possibleReset := false }) s)
  else waitIn .rstPoll s

/-- `if PR = 1:` Reset finalisation; then the handler exit (R113). -/
def afterClassification (s : State) : State :=
  if s.session.possibleReset then finalisationPoll exitHandler s else exitHandler s

/-! ### Classification -/

/-- The poll of write mode (R113, R114): the Timer is tested before the line. -/
def writePoll (s : State) : State :=
  if s.cfg.tW0Min ≤ ticks s then afterClassification (write0Delivered s)
  else if line s then
    if s.cfg.skip && decide (ticks s < s.cfg.tW1Min) then exitGlitch s
    else afterClassification (write1Delivered s)
  else waitIn .wPoll s

/-- The Read-0 hold (R125). -/
def holdPoll (s : State) : State :=
  if ticks s < s.cfg.tR0Ext then waitIn .r0Hold s
  else afterClassification (readDelivered .read0 (onDevice Device.setInputMode s))

/-- The fast path (R125, R121, R132). -/
def fastPath (s : State) : State :=
  if s.cfg.skip && line s then exitGlitch s
  else
    holdPoll (onDevice (fun d => if s.cfg.debugStrobe then d.strobe else d) (onDevice Device.setDrivenLow s))

/-- The handler's first action (R112, R113), in the tick `t_a`. -/
def firstAction (s : State) : State :=
  let s1 := onDevice (fun d => d.timerReset.timerStart) { s with latCount := 0 }
  if s1.session.read0Armed then fastPath s1
  else if s1.session.expectingRead then afterClassification (readDelivered .read1 s1)
  else writePoll s1

/-- Interrupt entry (R112): with `LAT = 1` the first action follows in the same tick. -/
def enterHandler (s : State) : State :=
  if s.cfg.lat ≤ 1 then firstAction (takeInterrupt s) else takeInterrupt s

/-- A tick of the dispatch latency: the first action comes `LAT - 1` ticks after entry (R112). -/
def latencyPoll (s : State) : State :=
  if s.cfg.lat ≤ s.latCount + 2 then firstAction { s with latCount := s.latCount + 1 }
  else { s with latCount := s.latCount + 1 }

/-- The handler's statements in one tick, by the position it waits at (R113, R115). -/
def handlerTick (s : State) : State :=
  match s.phase with
  | .wait => if interruptTaken s then enterHandler s else s
  | .lat => latencyPoll s
  | .wPoll => writePoll s
  | .r0Hold => holdPoll s
  | .rstPoll => finalisationPoll exitHandler s
  | .relWait => releasePoll s
  | .idleHold => idlePoll s
  | .presence => presencePoll s

/-! ### Meanings: F-HANDLER (assumption 19) -/

/-- rearm (R126). -/
def execRearm (s : State) : Host.Outcome State Fault Refusal := .next (onSession (Session.rearm s.mem) s)

/-- resetFinalisation (R127): runs when PR is set; ends after `PR <- 0` when the line has released. -/
def execResetFinalisation (s : State) : Host.Outcome State Fault Refusal :=
  .next (if s.session.possibleReset then finalisationPoll id s else s)

/-- RESET (R128): its statements up to the first wait; the following ticks run the rest. -/
def execReset (s : State) : Host.Outcome State Fault Refusal := .next (resetSequence s)

/-- handlerExit (R129). -/
def execHandlerExit (s : State) : Host.Outcome State Fault Refusal := .next (exitHandler s)

end Sys2Proof.Machine
end

