-- ==== Sys2Proof/Machine/Pulse.lean ====
section
/-! DEFINITION. Whole handler passes at event level (40_pulse_classifier R130): what one well-formed master pulse does
to the block, as the state stands in the tick after the handler's return tick (R134) with the master released
(assumption 12); and the meanings of the F-PULSE rows. `lowTicks` of the pulse is read from the state. -/

namespace Sys2Proof.Machine

/-- The beginning of a pass: the pending flag has been cleared at entry (60_exceptions R232), the pass's event list is
empty. Only an operation word can begin one while another pass runs, which is then dropped (assumption 30). -/
def beginPass (s : State) : State :=
  { s with
    device := { s.device with irqPending := false, clearNow := false, debugStrobe := false }
    latCount := 0
    events := [] }

/-- The line after a pass: the Timer holds the count of the return tick, in which the line read `high`; the master is
released. -/
def settle (high : Bool) (count : Nat) (s : State) : State :=
  { s with
    device := { s.device with
      tau := timerValue s.cfg count
      prevLine := high
      lineNow := wiredAnd false s.device.driveLow } }

/-- The Reset sequence as a whole (R128): `onReset()`, presence pulse, `TO <- 0`, `clear_pending()`. In the return tick
the slave still holds the line low. With `T_PRES = 1` the falling edge of the presence pulse comes in the very tick of
the clear and wins (10_state R41, 60_exceptions R229; assumption 14). -/
def resetPass (s : State) : State :=
  let r := onSession (fun x => { x with timerOverflow := false }) (engineReset (emit .reset s))
  settle false r.cfg.tPres
    { r with device := { r.device with driveLow := false, irqPending := r.cfg.tPres == 1 } }

/-- The end of a pass that is not a glitch: Reset finalisation if PR is set (R127; `reached`: the line stayed low to
T_RSTMIN), then the handler exit (R129). `count` is the Timer at the return tick of a pass without RESET (R134). -/
def concludePass (reached : Bool) (count : Nat) (s : State) : State :=
  let cleared := onSession (fun x => { x with possibleReset := false }) s
  exitHandler
    (if s.session.possibleReset && (reached || s.session.timerOverflow) then resetPass cleared
     else settle true count cleared)

/-- GLITCH (R120, R121): no session state changes. -/
def glitchPass (s : State) : State := exitGlitch (settle true s.lowTicks (beginPass s))

/-- WRITE1 (R122). -/
def write1Pass (s : State) : State := concludePass false s.lowTicks (write1Delivered (beginPass s))

/-- WRITE0 (R123), with or without the RESET that follows it in the same pass. -/
def write0Pass (reached : Bool) (s : State) : State :=
  concludePass reached s.lowTicks (write0Delivered (beginPass s))

/-- READ1 (R124). -/
def read1Pass (reached : Bool) (s : State) : State :=
  concludePass reached s.lowTicks (readDelivered .read1 (beginPass s))

/-- READ0 (R125): the line driver ends released; the earliest tick that can see the line high is one after the hold. -/
def read0Pass (reached : Bool) (s : State) : State :=
  concludePass reached (max s.lowTicks (s.cfg.tR0Ext + 1))
    (readDelivered .read0 (onDevice Device.setInputMode (beginPass s)))

/-- READ0 with the master already released at the first action (70_reset_and_hazards R274; assumption 13): the slave's
own assertion is a falling edge, which sets the pending flag after the entry clear. -/
def read0PhantomPass (s : State) : State :=
  concludePass false (max s.lowTicks (s.cfg.tR0Ext + 1))
    (readDelivered .read0
      (onDevice (fun d => { d.setInputMode with irqPending := true }) (beginPass s)))

/-- The armed rows of the decode table, which ER does not enter: `armed` is tested first (30_encoding R84, R113). -/
def armedPass (skip : Bool) (b : Band) (s : State) : State :=
  match b with
  | .bandZ => if skip then glitchPass s else read0PhantomPass s
  | .bandA => read0Pass false s
  | .bandB => read0Pass false s
  | .bandC => read0Pass false s
  | .bandD => read0Pass true s

/-- The rows with ER set and not armed. -/
def readPass (b : Band) (s : State) : State :=
  match b with
  | .bandD => read1Pass true s
  | .bandZ => read1Pass false s
  | .bandA => read1Pass false s
  | .bandB => read1Pass false s
  | .bandC => read1Pass false s

/-- The write-mode rows. -/
def writePass (skip : Bool) (b : Band) (s : State) : State :=
  match b with
  | .bandZ => if skip then glitchPass s else write1Pass s
  | .bandA => if skip then glitchPass s else write1Pass s
  | .bandB => write1Pass s
  | .bandC => write0Pass false s
  | .bandD => write0Pass true s

/-- `event(L)` for a pulse whose `lowTicks` is in band `b` (R130). -/
def eventPass (b : Band) (s : State) : State :=
  if s.session.read0Armed then armedPass s.cfg.skip b s
  else if s.session.expectingRead then readPass b s
  else writePass s.cfg.skip b s

/-! ### Meanings: F-PULSE -/

/-- GLITCH, write mode (R120). -/
def execGlitch (_b : Band) (s : State) : Host.Outcome State Fault Refusal := .next (glitchPass s)

/-- WRITE1, SKIP clear, bands Z and A (R122). -/
def execWrite1Short (_b : Band) (s : State) : Host.Outcome State Fault Refusal := .next (write1Pass s)

/-- WRITE1, band B (R122). -/
def execWrite1BandB (_k : Bool) (s : State) : Host.Outcome State Fault Refusal := .next (write1Pass s)

/-- WRITE0, band C (R123). -/
def execWrite0 (_k : Bool) (s : State) : Host.Outcome State Fault Refusal := .next (write0Pass false s)

/-- WRITE0 then RESET, band D (R123, R127, R128). -/
def execWrite0Reset (_k : Bool) (s : State) : Host.Outcome State Fault Refusal := .next (write0Pass true s)

/-- READ1, bands Z to C (R124). -/
def execRead1 (_k : Bool) (_b : Band) (s : State) : Host.Outcome State Fault Refusal := .next (read1Pass false s)

/-- READ1 then RESET, band D (R124, R127, R128). -/
def execRead1Reset (_k : Bool) (s : State) : Host.Outcome State Fault Refusal := .next (read1Pass true s)

/-- GLITCH, fast-path filter (R121). -/
def execGlitchFast (s : State) : Host.Outcome State Fault Refusal := .next (glitchPass s)

/-- READ0, SKIP clear, band Z: outside the well-formed envelope (R125, R274). -/
def execRead0BandZ (s : State) : Host.Outcome State Fault Refusal := .next (read0PhantomPass s)

/-- READ0, band A (R125). -/
def execRead0BandA (_k : Bool) (s : State) : Host.Outcome State Fault Refusal := .next (read0Pass false s)

/-- READ0, bands B and C (R125). -/
def execRead0BandBC (_k : Bool) (_b : Band) (s : State) : Host.Outcome State Fault Refusal :=
  .next (read0Pass false s)

/-- READ0 then RESET, band D (R125, R127, R128). -/
def execRead0Reset (_k : Bool) (s : State) : Host.Outcome State Fault Refusal := .next (read0Pass true s)

/-- UNREACHABLE_ARMED_NOT_ER: decodes as the armed rows (30_encoding R84, R113). -/
def execArmedNotER (k : Bool) (b : Band) (s : State) : Host.Outcome State Fault Refusal := .next (armedPass k b s)

end Sys2Proof.Machine
end

