-- ==== Sys2Proof/Machine/Compound.lean ====
section
/-! DEFINITION. The compound formats (30_encoding R90, R91): sequences of whole passes at event level, whose BusEvents
are collected in order. A read slot and a write-1 slot are band-B pulses, a write-0 slot is a band-C pulse (R95;
assumption 23). -/

namespace Sys2Proof.Machine

/-- A sequence of slots; `seen` collects the BusEvents. -/
def runSlots : List Band → List BusEvent → State → State
  | [], seen, s => { s with events := seen }
  | b :: bs, seen, s => runSlots bs (seen ++ (eventPass b s).events) (eventPass b s)

/-- The write slot that carries a bit. -/
def writeSlot (w : Bool) : Band := if w then .bandB else .bandC

/-- The read slot. -/
def readSlot : Band := .bandB

/-! ### Meanings -/

/-- F-ID64 (R90, 41_protocol_engine R179): 64 read slots. -/
def execId64 (s : State) : Host.Outcome State Fault Refusal := .next (runSlots (List.replicate 64 readSlot) [] s)

/-- F-TRIPLET (R91, 41_protocol_engine R180): two read slots, then a write slot with the master's choice. -/
def execTriplet (w : Bool) (s : State) : Host.Outcome State Fault Refusal :=
  .next (runSlots [readSlot, readSlot, writeSlot w] [] s)

end Sys2Proof.Machine
end

