-- ==== Sys2Proof/Machine/HwInterface.lean ====
section
/-! DEFINITION. The meanings of the F-HW rows (42_hw_interface R201 to R211) and the boot sequence
(70_reset_and_hazards R262). -/

namespace Sys2Proof.Machine

/-- setInputMode (R201). -/
def execSetInputMode (s : State) : Host.Outcome State Fault Refusal := .next (onDevice Device.setInputMode s)

/-- setDrivenLow (R202). -/
def execSetDrivenLow (s : State) : Host.Outcome State Fault Refusal := .next (onDevice Device.setDrivenLow s)

/-- readLevel (R203): the sample of the current tick, to the return port (assumption 24). -/
def execReadLevel (s : State) : Host.Outcome State Fault Refusal := .next { s with retBit := line s }

/-- timer.start (R204). -/
def execTimerStart (s : State) : Host.Outcome State Fault Refusal := .next (onDevice Device.timerStart s)

/-- timer.stop (R205). -/
def execTimerStop (s : State) : Host.Outcome State Fault Refusal := .next (onDevice Device.timerStop s)

/-- timer.resetToZero (R206). -/
def execTimerResetToZero (s : State) : Host.Outcome State Fault Refusal := .next (onDevice Device.timerReset s)

/-- timer.readTicks (R207): the count of the current tick, to the return port (assumption 24). -/
def execTimerReadTicks (s : State) : Host.Outcome State Fault Refusal := .next { s with retTicks := ticks s }

/-- timer.overflowIndicator (R208; assumption 18): TO is set if the running Timer wraps in this tick. -/
def execTimerOverflowIndicator (s : State) : Host.Outcome State Fault Refusal := .next (noteOverflow s)

/-- configureFallingEdge (R209, D35; assumption 20): the falling edge of the line is the one interrupt source, whichever
input it is seen through; no rule reads the operand. -/
def execConfigureFallingEdge (_src : EdgeSource) (s : State) : Host.Outcome State Fault Refusal := .next s

/-- clearPendingFlag (R210). -/
def execClearPendingFlag (s : State) : Host.Outcome State Fault Refusal := .next (onDevice Device.clearPending s)

/-- enableGlobalInterrupts (R211). -/
def execEnableGlobalInterrupts (s : State) : Host.Outcome State Fault Refusal :=
  .next (onDevice Device.enableInterrupts s)

/-- The boot sequence (70_reset_and_hazards R262), which takes no tick: line released, Timer stopped at zero, session
state at its power-on values, `prev_line <- line()`, pending flag clear, interrupts enabled. `low` is the master's drive
in tick 0. The identity, the configuration and what the outside world does next are kept. -/
def boot (low : Bool) (s : State) : State :=
  let d := s.device.setInputMode.timerStop.timerReset
  let sampled := { d with lineNow := wiredAnd low d.driveLow, prevLine := wiredAnd low d.driveLow }
  let quiet := { sampled.enableInterrupts with irqPending := false, clearNow := false, debugStrobe := false }
  { s with
    session := .powerOn
    device := quiet
    phase := .wait
    latCount := 0
    events := []
    lowTicks := 0
    retBit := false
    retTicks := 0 }

end Sys2Proof.Machine
end

