-- ==== Sys2Proof/Machine/Dispatch.lean ====
section
/-! DEFINITION. One arm per row of the opcode table, each one call of its meaning. -/

namespace Sys2Proof.Machine

def exec (i : Instr) (s : State) : Host.Outcome State Fault Refusal :=
  match i with
  | .glitch b => Sys2Proof.Machine.execGlitch b s
  | .write1Short b => Sys2Proof.Machine.execWrite1Short b s
  | .write1BandB k => Sys2Proof.Machine.execWrite1BandB k s
  | .write0 k => Sys2Proof.Machine.execWrite0 k s
  | .write0Reset k => Sys2Proof.Machine.execWrite0Reset k s
  | .read1 k b => Sys2Proof.Machine.execRead1 k b s
  | .read1Reset k => Sys2Proof.Machine.execRead1Reset k s
  | .glitchFast => Sys2Proof.Machine.execGlitchFast s
  | .read0BandZ => Sys2Proof.Machine.execRead0BandZ s
  | .read0BandA k => Sys2Proof.Machine.execRead0BandA k s
  | .read0BandBC k b => Sys2Proof.Machine.execRead0BandBC k b s
  | .read0Reset k => Sys2Proof.Machine.execRead0Reset k s
  | .armedNotER k b => Sys2Proof.Machine.execArmedNotER k b s
  | .readIdentity => Sys2Proof.Machine.execReadIdentity s
  | .discover => Sys2Proof.Machine.execDiscover s
  | .cmdOther c => Sys2Proof.Machine.execCmdOther c s
  | .id64 => Sys2Proof.Machine.execId64 s
  | .triplet w => Sys2Proof.Machine.execTriplet w s
  | .onReset => Sys2Proof.Machine.execOnReset s
  | .onWriteBit bit => Sys2Proof.Machine.execOnWriteBit bit s
  | .onWriteBitResetReceived bit => Sys2Proof.Machine.execOnWriteBitResetReceived bit s
  | .onWriteBitDiscover bit => Sys2Proof.Machine.execOnWriteBitDiscover bit s
  | .onWriteBitIdleOrReportIdentity bit => Sys2Proof.Machine.execOnWriteBitIdleOrReportIdentity bit s
  | .onReadBitRequested => Sys2Proof.Machine.execOnReadBitRequested s
  | .onReadBitReportIdentity => Sys2Proof.Machine.execOnReadBitReportIdentity s
  | .onReadBitDiscover => Sys2Proof.Machine.execOnReadBitDiscover s
  | .onReadBitIdleOrResetReceived => Sys2Proof.Machine.execOnReadBitIdleOrResetReceived s
  | .switchToReadMode => Sys2Proof.Machine.execSwitchToReadMode s
  | .deferredSwitchToWrite => Sys2Proof.Machine.execDeferredSwitchToWrite s
  | .advanceCursor => Sys2Proof.Machine.execAdvanceCursor s
  | .rearm => Sys2Proof.Machine.execRearm s
  | .resetFinalisation => Sys2Proof.Machine.execResetFinalisation s
  | .reset => Sys2Proof.Machine.execReset s
  | .handlerExit => Sys2Proof.Machine.execHandlerExit s
  | .setInputMode => Sys2Proof.Machine.execSetInputMode s
  | .setDrivenLow => Sys2Proof.Machine.execSetDrivenLow s
  | .readLevel => Sys2Proof.Machine.execReadLevel s
  | .timerStart => Sys2Proof.Machine.execTimerStart s
  | .timerStop => Sys2Proof.Machine.execTimerStop s
  | .timerResetToZero => Sys2Proof.Machine.execTimerResetToZero s
  | .timerReadTicks => Sys2Proof.Machine.execTimerReadTicks s
  | .timerOverflowIndicator => Sys2Proof.Machine.execTimerOverflowIndicator s
  | .configureFallingEdge src => Sys2Proof.Machine.execConfigureFallingEdge src s
  | .clearPendingFlag => Sys2Proof.Machine.execClearPendingFlag s
  | .enableGlobalInterrupts => Sys2Proof.Machine.execEnableGlobalInterrupts s

end Sys2Proof.Machine
end

