-- ==== Sys2Proof/Machine/Fetch.lean ====
section
/-! DEFINITION. How a pulse becomes an operation: the classification key (30_encoding R83), and the states in which an
event-level pulse has a meaning (40_pulse_classifier R131). -/

namespace Sys2Proof.Machine

/-- The key of a pulse in a state: SKIP, ER and armed at the first action, the band of `lowTicks`. -/
def keyOfPulse (lowTicks : Nat) (s : State) : Key :=
  pulseKey s.cfg.skip s.session.expectingRead s.session.read0Armed (bandOf s.cfg lowTicks)

/-- The operation word of a pulse: its key, in format 1. -/
def pulseBytes (lowTicks : Nat) (s : State) : List Byte := [(keyOfPulse lowTicks s).setWidth 8, 1#8]

/-- An event-level pulse has a meaning (40_pulse_classifier R131 b): the handler is not running, no edge is pending,
interrupts are enabled, the slave does not drive the line and the line reads high, so that the pulse's falling edge is
seen. -/
def pulseAccepted (s : State) : Bool :=
  s.phase == .wait && !s.device.irqPending && s.device.irqEnable && !s.device.driveLow && s.device.lineNow

end Sys2Proof.Machine
end

