-- ==== Sys2Proof/Machine/Tick.lean ====
section
/-! DEFINITION. One tick (40_pulse_classifier R111): the handler's statements of the tick, then the end-of-tick updates
and the line sample of the next tick. -/

namespace Sys2Proof.Machine

/-- The end of a tick (40_pulse_classifier R111, 10_state R36): pending flag and `prev_line`, then the Timer and its
wrap; then the line of the next tick is sampled, in which the drive written in this tick is visible. `low` is the
master's drive in the next tick. -/
def endOfTick (low : Bool) (s : State) : State :=
  let noted := noteOverflow s
  { noted with
    device := { s.device with
      irqPending := irqNext s.device
      prevLine := s.device.lineNow
      clearNow := false
      tau := tauNext s.cfg s.device
      lineNow := wiredAnd low s.device.driveLow } }

/-- One tick: the strobe output of the last tick ends, the handler runs, the tick ends. -/
def tick (low : Bool) (s : State) : State :=
  endOfTick low (handlerTick (onDevice (fun d => { d with debugStrobe := false }) s))

/-- Ticks one after another, by the master's drive in each tick that begins. -/
def tickList : List Bool → State → State
  | [], s => s
  | low :: rest, s => tickList rest (tick low s)

end Sys2Proof.Machine
end

