-- ==== Sys2Proof/Machine/Step.lean ====
section
/-! DEFINITION. One step of the machine: the next thing the outside world does (assumption 3). -/

namespace Sys2Proof.Machine

/-- Decode the bytes of an operation word and run the operation. -/
def runBytes (bytes : List Byte) (s : State) : Host.Outcome State Fault Refusal :=
  match decode s.cfg.cmdDiscover bytes with
  | .ok i => exec i s
  | .error e => .refused (.undecodable e)

/-- One step. A configuration that breaks 00_scope R8 is refused. With nothing queued, one tick passes with the master
released. An event-level pulse is refused while a pass runs or an edge is pending (40_pulse_classifier R131 b,
93_implementation_defined U6), but an operation word is run in every state: an F-PULSE, F-ID64 or F-TRIPLET word taken
then runs its whole pass, drops the pass in progress and clears the pending flag (DESIGN CHOICE, unsafe;
assumption 30). -/
def step (s : State) : Host.Outcome State Fault Refusal :=
  if configLegal s.cfg then
    match s.input with
    | [] => .next (tick false s)
    | .tick low :: rest => .next (tick low { s with input := rest })
    | .pulse lowTicks :: rest =>
      if pulseAccepted s then runBytes (pulseBytes lowTicks s) { s with lowTicks := lowTicks, input := rest }
      else .refused .stimulusNotWellFormed
    | .word bytes :: rest => runBytes bytes { s with input := rest }
    | .por low :: rest => .next (boot low { s with input := rest })
  else .refused .illegalConfiguration

/-- The state with an opcode-table word placed where the next step fetches: at the head of the input queue. -/
def State.withFetchWord (s : State) (nbits w : Nat) : State :=
  { s with input := .word (tableBytes nbits w) :: s.input }

end Sys2Proof.Machine
end

