-- ==== Sys2Proof/Machine/Stimulus.lean ====
section
/-! DEFINITION. The stimulus notation of 30_encoding R95: waveforms as lists of (level, duration) items, the macros at
their REFCFG values, and a run of a waveform at tick level from power-on. -/

namespace Sys2Proof.Machine

/-- An item of a stimulus program. -/
inductive Stimulus where
  /-- `LOW d`: the master pulls low for `d` ticks -/
  | low (d : Nat)
  /-- `HIGH g`: the master releases for `g` ticks -/
  | high (g : Nat)
deriving DecidableEq, Repr

/-- The master's drive per tick: the program's encoding `m(t)`. -/
def waveform : List Stimulus → List Bool
  | [] => []
  | .low d :: r => List.replicate d true ++ waveform r
  | .high g :: r => List.replicate g false ++ waveform r

/-- `M_RESET` at REFCFG. -/
def macroReset : List Stimulus := [.low 250, .high 400]

/-- `M_W1` at REFCFG. -/
def macroWrite1 : List Stimulus := [.low 8, .high 100]

/-- `M_W0` at REFCFG. -/
def macroWrite0 : List Stimulus := [.low 60, .high 100]

/-- `M_RS` at REFCFG. -/
def macroReadSlot : List Stimulus := [.low 8, .high 100]

/-- `M_W1` or `M_W0` by the bit. -/
def macroWrite (w : Bool) : List Stimulus := if w then macroWrite1 else macroWrite0

/-- `M_WBYTE(b)`: least-significant bit first. -/
def macroWriteByte (b : Byte) : List Stimulus :=
  macroWrite (b.getLsbD 0) ++ macroWrite (b.getLsbD 1) ++ macroWrite (b.getLsbD 2) ++ macroWrite (b.getLsbD 3)
    ++ macroWrite (b.getLsbD 4) ++ macroWrite (b.getLsbD 5) ++ macroWrite (b.getLsbD 6) ++ macroWrite (b.getLsbD 7)

/-- `M_RBYTE`: eight read slots. -/
def macroReadByte : List Stimulus := (List.replicate 8 macroReadSlot).flatten

/-- `M_TRIPLET(w)`. -/
def macroTriplet (w : Bool) : List Stimulus := macroReadSlot ++ macroReadSlot ++ macroWrite w

/-- The state at power-on with a waveform to come: the drive of tick 0 is sampled at boot, the rest is queued. -/
def powerOnWith (cfg : Config) (mem : Memory) (program : List Stimulus) : State :=
  match waveform program with
  | [] => .powerOn cfg mem false []
  | low :: rest => .powerOn cfg mem low (rest.map Input.tick)

end Sys2Proof.Machine
end

