-- ==== Sys2Proof/Safety.lean ====
section
/-! DEFINITION. The terms claims use: what a sound state is, the invariants of 10_state R40, the state a pass leaves, the
identity as a bit string, and runs. -/

namespace Sys2Proof.Safety

open Sys2Proof Sys2Proof.Machine

/-! ### Soundness of any state -/

/-- Exactly one bit is set (10_state R32, R40 a). -/
abbrev OneHot (mask : Byte) : Prop := ∃ k : Fin 8, mask = 0x01#8 <<< k.val

/-- What every step of every kind keeps: a legal configuration (00_scope R8), the store in canonical form, a one-hot
mask (10_state R40 a), the Timer below 2^TIMER_BITS (R22). -/
structure Sound (s : State) : Prop where
  legal : configLegal s.cfg = true
  store : s.mem.wf = true
  mask : OneHot s.session.bitMask
  timer : s.device.tau < 2 ^ s.cfg.timerBits

/-! ### The invariants of 10_state R40 -/

/-- R40 (e), (f), (g). -/
structure SessionOrder (x : Session) : Prop where
  resetReceived : x.commandState = .resetReceived →
    x.expectingRead = false ∧ x.deferredSwitchToWrite = false ∧ x.invertNextReadBit = false
  reportIdentity : x.commandState = .reportIdentity →
    x.expectingRead = true ∧ x.deferredSwitchToWrite = false
  deferred : x.deferredSwitchToWrite = true →
    x.commandState = .discover ∧ x.expectingRead = true ∧ x.invertNextReadBit = false

/-- R40 (c), (d), (h): what holds whenever the handler is not running. -/
structure AtRest (s : State) : Prop where
  possibleReset : s.session.possibleReset = false
  timerOverflow : s.session.timerOverflow = false
  armed : s.session.read0Armed = (s.session.expectingRead && !s.session.pendingBitValue)
  driveLow : s.device.driveLow = false
  timerRunning : s.device.timerRunning = false

/-- What holds at each position of the handler (10_state R37), at the beginning of a tick: R40 at P_WAIT, and at the
other positions what makes R40 inductive. -/
def PhaseOrder (s : State) : Prop :=
  match s.phase with
  | .wait => AtRest s
  | .lat => AtRest s
  | .wPoll =>
    s.session.possibleReset = false ∧ s.session.timerOverflow = false ∧ s.session.expectingRead = false
      ∧ s.session.read0Armed = false ∧ s.device.driveLow = false ∧ s.device.timerRunning = true
      ∧ s.device.tau ≤ s.cfg.tW0Min
  | .r0Hold =>
    s.session.possibleReset = false ∧ s.session.timerOverflow = false ∧ s.session.expectingRead = true
      ∧ s.device.driveLow = true ∧ s.device.timerRunning = true ∧ s.device.tau ≤ s.cfg.tR0Ext
  | .rstPoll =>
    s.session.possibleReset = true ∧ s.session.timerOverflow = false
      ∧ s.device.driveLow = false ∧ s.device.timerRunning = true ∧ s.device.tau ≤ s.cfg.tRstMin
  | .relWait =>
    s.session.possibleReset = false ∧ s.session.commandState = .resetReceived
      ∧ s.device.driveLow = false ∧ s.device.timerRunning = true
  | .idleHold =>
    s.session.possibleReset = false ∧ s.session.commandState = .resetReceived
      ∧ s.device.driveLow = false ∧ s.device.timerRunning = true ∧ s.device.tau ≤ s.cfg.tIdle
  | .presence =>
    s.session.possibleReset = false ∧ s.session.commandState = .resetReceived
      ∧ s.device.driveLow = true ∧ s.device.timerRunning = true ∧ s.device.tau ≤ s.cfg.tPres

/-- The invariant of a block that is reached through its line alone. -/
structure Inv (s : State) : Prop where
  sound : Sound s
  order : SessionOrder s.session
  phase : PhaseOrder s

/-- Only the line and the power-on port speak to the block: no operation word is queued (10_state R42). -/
def wireOnly (s : State) : Bool :=
  s.input.all fun i => match i with
    | .word _ => false
    | .tick _ => true
    | .pulse _ => true
    | .por _ => true

/-! ### What a pass leaves -/

/-- The state after a pass without RESET, in the tick after its return tick with the master released: `x` is its session
state, `count` the Timer at the return tick (40_pulse_classifier R134), the line was high in that tick. -/
def afterPass (s : State) (driveLow irqPending : Bool) (count : Nat) (events : List BusEvent) (x : Session) : State :=
  { s with
    session := x
    device :=
      { driveLow := driveLow
        tau := count % 2 ^ s.cfg.timerBits
        timerRunning := false
        irqPending := irqPending
        irqEnable := s.device.irqEnable
        prevLine := true
        lineNow := !driveLow
        clearNow := false
        debugStrobe := false }
    phase := .wait
    latCount := 0
    events := events }

/-- The session state after a protocol Reset (10_state R41, column 3); PBV is the one register it leaves. -/
def sessionAfterReset (pbv : Bool) : Session where
  expectingRead := false
  deferredSwitchToWrite := false
  possibleReset := false
  timerOverflow := false
  invertNextReadBit := false
  pendingBitValue := pbv
  commandState := .resetReceived
  byteIndex := 0
  bitMask := 0x01#8
  accumulatedCommand := 0x00#8
  read0Armed := false

/-- The state after a pass with RESET, in the tick after its return tick with the master released (10_state R41 column
3): in the return tick the slave still held the line low, and the presence pulse of one tick (T_PRES = 1) sets the
pending flag in the very tick of the clear. -/
def afterResetPass (s : State) (events : List BusEvent) (pbv : Bool) : State :=
  { s with
    session := sessionAfterReset pbv
    device :=
      { driveLow := false
        tau := s.cfg.tPres % 2 ^ s.cfg.timerBits
        timerRunning := false
        irqPending := s.cfg.tPres == 1
        irqEnable := s.device.irqEnable
        prevLine := false
        lineNow := true
        clearNow := false
        debugStrobe := false }
    phase := .wait
    latCount := 0
    events := events }

/-- The fast-path flag and PR as a pass without RESET leaves them (40_pulse_classifier R127, R129). -/
def passEnd (x : Session) : Session :=
  { x with possibleReset := false, read0Armed := x.expectingRead && !x.pendingBitValue }

/-- The Timer in the return tick of a pass without RESET that answered READ0 (40_pulse_classifier R134). -/
def read0Return (s : State) : Nat := max s.lowTicks (s.cfg.tR0Ext + 1)

/-- What a transfer of whole slots without RESET leaves beside the session state and the events: the store, the
configuration and the model's ports as before, the handler not running, the line no more driven than before. -/
structure TransferFrame (s t : State) : Prop where
  mem : t.mem = s.mem
  cfg : t.cfg = s.cfg
  lowTicks : t.lowTicks = s.lowTicks
  retBit : t.retBit = s.retBit
  retTicks : t.retTicks = s.retTicks
  irqEnable : t.device.irqEnable = s.device.irqEnable
  driveLow : t.device.driveLow = true → s.device.driveLow = true
  timerRunning : t.device.timerRunning = false
  irqPending : t.device.irqPending = false
  phase : t.phase = .wait
  latCount : t.latCount = 0

/-! ### The identity as a bit string -/

/-- Identity bit `8k + j` is bit `j` of byte `k` (20_memory R62). -/
def identityBit (m : Memory) (n : Nat) : Bool := ((readByte m (n / 8)).getD 0#8).getLsbD (n % 8)

/-- A read slot's answer as a BusEvent (30_encoding R90). -/
def readEvent (bit : Bool) : BusEvent := if bit then .read1 else .read0

/-- A write slot's BusEvent. -/
def writeEvent (bit : Bool) : BusEvent := if bit then .write1 else .write0

/-! ### Pulses as waveforms -/

/-- Whether the pass of a pulse holds the line low for a Read-0 (40_pulse_classifier R113, R121). -/
def holdsLine (s : State) (lowTicks : Nat) : Bool :=
  s.session.read0Armed && !(s.cfg.skip && lowTicks == 0)

/-- Ticks from the first action to the first tick that can see the line high (40_pulse_classifier R134). -/
def highAfter (s : State) (lowTicks : Nat) : Nat :=
  if holdsLine s lowTicks then max lowTicks (s.cfg.tR0Ext + 1) else lowTicks

/-- Ticks from the first action to the return tick (40_pulse_classifier R134, 70_reset_and_hazards R290). -/
def returnAfter (s : State) (lowTicks : Nat) : Nat :=
  if s.cfg.tRstMin ≤ lowTicks then highAfter s lowTicks + s.cfg.tIdle + s.cfg.tPres else highAfter s lowTicks

/-- The master's waveform of one pulse (30_encoding R81), from the tick of its falling edge to the tick after the
handler's return tick: low for LAT + lowTicks ticks, then released. -/
def pulseWaveform (s : State) (lowTicks : Nat) : List Bool :=
  List.replicate (s.cfg.lat + lowTicks) true ++ List.replicate (returnAfter s lowTicks - lowTicks + 2) false

end Sys2Proof.Safety
end

