-- ==== Sys2Proof/Certificates/Slice0/Obligations.lean ====
section
/-! DEFINITION. The statements for the provers. In every one a state is at the beginning of a tick (assumption 4) and the
configuration is the state's own, so each holds for every configuration the hypotheses admit. "rows" are rows of
spec/opcode_table.json. -/

open Sys2Proof Sys2Proof.Machine Sys2Proof.Safety

/-! ### Encoding -/

/-- For every well-formed operation, decoding its encoding gives it back, whatever CMD_DISCOVER is (30_encoding R84,
R88). The operation numbers of the formats without an encoding in the spec are the model's choice (assumption 9). -/
def Obligations.DecodeOfEncodeIsTheOperation : Prop :=
  ∀ (disc : Byte) (i : Instr), i.wellFormed disc = true → decode disc (encode disc i) = .ok i

/-- The F-PULSE rows partition the keys with band codes 0 to 4, and each is its row's own key; codes 5 to 7 are no
operation (30_encoding R83, R84). -/
def Obligations.PulseRowsPartitionTheValidKeys : Prop :=
  ∀ key : Key,
    (key.extractLsb' 0 3 < 5#3 →
      ∃ i, decodeKey key = .ok i ∧ encodeKey i = key ∧ ∀ disc, i.wellFormed disc = true)
    ∧ (5#3 ≤ key.extractLsb' 0 3 → decodeKey key = .error (.noSuchBand key))

/-- Sample words decode to their rows: a key of each mode and the command bytes, whose first bytes are the table's
encodings (30_encoding R84, R88). The second bytes, the format numbers 1 and 2, are the model's operation words
(assumption 9, a DESIGN CHOICE). Not sampled: WRITE0_RESET, READ1_RESET, and READ0 in bands Z and A. -/
def Obligations.SampleWordsDecodeToTheirRows : Prop :=
  decode 0xF0#8 [0b00100001#8, 1#8] = .ok (.glitch .bandA)
  ∧ decode 0xF0#8 [0b00000000#8, 1#8] = .ok (.write1Short .bandZ)
  ∧ decode 0xF0#8 [0b00100010#8, 1#8] = .ok (.write1BandB true)
  ∧ decode 0xF0#8 [0b00000011#8, 1#8] = .ok (.write0 false)
  ∧ decode 0xF0#8 [0b00110010#8, 1#8] = .ok (.read1 true .bandB)
  ∧ decode 0xF0#8 [0b00111000#8, 1#8] = .ok .glitchFast
  ∧ decode 0xF0#8 [0b00011011#8, 1#8] = .ok (.read0BandBC false .bandC)
  ∧ decode 0xF0#8 [0b00111100#8, 1#8] = .ok (.read0Reset true)
  ∧ decode 0xF0#8 [0b00001100#8, 1#8] = .ok (.armedNotER false .bandD)
  ∧ decode 0xF0#8 [0b00110011#8, 2#8] = .ok .readIdentity
  ∧ decode 0xF0#8 [0b11110000#8, 2#8] = .ok .discover
  ∧ decode 0xF0#8 [0b01010101#8, 2#8] = .ok (.cmdOther 0x55#8)

/-- The five bands of `lowTicks` (30_encoding R82), for every legal configuration: each by its range, with its code 0 to
4, and band A empty when T_W1MIN is 1. -/
def Obligations.LowTicksFallInExactlyOneBand : Prop :=
  ∀ (c : Config) (lowTicks : Nat), configLegal c = true →
    bandCode .bandZ = 0#3 ∧ bandCode .bandA = 1#3 ∧ bandCode .bandB = 2#3 ∧ bandCode .bandC = 3#3
    ∧ bandCode .bandD = 4#3
    ∧ (c.tW1Min = 1 → bandOf c lowTicks ≠ .bandA)
    ∧ (bandOf c lowTicks = .bandZ ↔ lowTicks = 0)
    ∧ (bandOf c lowTicks = .bandA ↔ 1 ≤ lowTicks ∧ lowTicks < c.tW1Min)
    ∧ (bandOf c lowTicks = .bandB ↔ c.tW1Min ≤ lowTicks ∧ lowTicks < c.tW0Min)
    ∧ (bandOf c lowTicks = .bandC ↔ c.tW0Min ≤ lowTicks ∧ lowTicks < c.tRstMin)
    ∧ (bandOf c lowTicks = .bandD ↔ c.tRstMin ≤ lowTicks)

/-! ### The step -/

/-- A step on an operation word runs the operation its bytes decode to, with the word taken off the queue, and refuses
bytes that decode to none. The queue and the words are the model's choice (assumptions 2, 3 and 9). -/
def Obligations.StepRunsTheDecodedWord : Prop :=
  ∀ (s : State) (bytes : List Byte) (rest : List Input), configLegal s.cfg = true → s.input = .word bytes :: rest →
    (∀ i, decode s.cfg.cmdDiscover bytes = .ok i → i.wellFormed s.cfg.cmdDiscover = true →
      step s = exec i { s with input := rest })
    ∧ (∀ e, decode s.cfg.cmdDiscover bytes = .error e → step s = .refused (.undecodable e))

/-- A step on an accepted pulse runs the row that the decode table gives for SKIP, ER, armed and the pulse's band
(30_encoding R83, R84), with the measured low time latched. -/
def Obligations.StepRunsThePulseRowOfTheTable : Prop :=
  ∀ (s : State) (lowTicks : Nat) (rest : List Input), configLegal s.cfg = true →
    s.input = .pulse lowTicks :: rest → s.phase = .wait → s.device.irqPending = false → s.device.irqEnable = true →
    s.device.driveLow = false → s.device.lineNow = true →
    let u := { s with lowTicks := lowTicks, input := rest }
    let k := s.cfg.skip
    let b := bandOf s.cfg lowTicks
    (s.session.read0Armed = false → s.session.expectingRead = false →
      (lowTicks < s.cfg.tW1Min → step s = exec (if k then .glitch b else .write1Short b) u)
      ∧ (s.cfg.tW1Min ≤ lowTicks → lowTicks < s.cfg.tW0Min → step s = exec (.write1BandB k) u)
      ∧ (s.cfg.tW0Min ≤ lowTicks → lowTicks < s.cfg.tRstMin → step s = exec (.write0 k) u)
      ∧ (s.cfg.tRstMin ≤ lowTicks → step s = exec (.write0Reset k) u))
    ∧ (s.session.read0Armed = false → s.session.expectingRead = true →
      (lowTicks < s.cfg.tRstMin → step s = exec (.read1 k b) u)
      ∧ (s.cfg.tRstMin ≤ lowTicks → step s = exec (.read1Reset k) u))
    ∧ (s.session.read0Armed = true → s.session.expectingRead = true →
      (lowTicks = 0 → step s = exec (if k then .glitchFast else .read0BandZ) u)
      ∧ (1 ≤ lowTicks → lowTicks < s.cfg.tW1Min → step s = exec (.read0BandA k) u)
      ∧ (s.cfg.tW1Min ≤ lowTicks → lowTicks < s.cfg.tRstMin → step s = exec (.read0BandBC k b) u)
      ∧ (s.cfg.tRstMin ≤ lowTicks → step s = exec (.read0Reset k) u))
    ∧ (s.session.read0Armed = true → s.session.expectingRead = false → step s = exec (.armedNotER k b) u)

/-- A step on a tick of the waveform, or with nothing queued, passes one tick (assumptions 2 and 3, the model's choice:
silence is a released line); a step on the power-on port leaves the power-on state with the identity, the configuration
and the rest of the queue kept. That power-on may come at any point of a run, takes no tick and clears the model's own
ports is the model's choice (assumption 26). -/
def Obligations.StepPassesATickOrPowersOn : Prop :=
  ∀ (s : State) (low : Bool) (rest : List Input), configLegal s.cfg = true →
    (s.input = [] → step s = .next (tick false s))
    ∧ (s.input = .tick low :: rest → step s = .next (tick low { s with input := rest }))
    ∧ (s.input = .por low :: rest → step s = .next (State.powerOn s.cfg s.mem low rest))

/-- The constraints on a configuration, each of 00_scope R8: a step is refused for that reason exactly when one is broken.
R8 says that a model refuses such a configuration and not how; that every step answers the refusal is the model's reading
(assumption 21, DEDUCED). -/
def Obligations.IllegalConfigurationIsRefused : Prop :=
  ∀ s : State,
    (step s = .refused .illegalConfiguration) ↔
      ¬ (1 ≤ s.cfg.lat
        ∧ 1 ≤ s.cfg.tW1Min ∧ s.cfg.tW1Min < s.cfg.tW0Min ∧ s.cfg.tW0Min < s.cfg.tRstMin
        ∧ s.cfg.tRstMin < 2 ^ s.cfg.timerBits
        ∧ 1 ≤ s.cfg.tR0Ext ∧ s.cfg.tR0Ext < s.cfg.tRstMin
        ∧ 1 ≤ s.cfg.tIdle ∧ s.cfg.tIdle < 2 ^ s.cfg.timerBits
        ∧ 1 ≤ s.cfg.tPres ∧ s.cfg.tPres < 2 ^ s.cfg.timerBits
        ∧ s.cfg.cmdDiscover ≠ 0x33#8)

/-- An event-level pulse is refused where 40_pulse_classifier R131 (b) is broken at its falling edge: while the handler
runs, while an edge is pending, or when the edge would not be seen or taken. Which pulses are refused is the model's
reading (assumption 22, DEDUCED): pulses outside the envelope by R131 (d) or (f) are run (assumptions 13 and 16). -/
def Obligations.PulseWhileBusyPendingOrUnseenIsRefused : Prop :=
  ∀ (s : State) (lowTicks : Nat) (rest : List Input), configLegal s.cfg = true → s.input = .pulse lowTicks :: rest →
    (s.phase ≠ .wait ∨ s.device.irqPending = true ∨ s.device.irqEnable = false ∨ s.device.driveLow = true
      ∨ s.device.lineNow = false) →
    step s = .refused .stimulusNotWellFormed

/-- Every row of the table completes in every state: no operation faults or is refused (60_exceptions R220, 20_memory
R63). -/
def Obligations.EveryOperationCompletes : Prop :=
  ∀ (i : Instr) (s : State), ∃ t, exec i s = .next t

/-! ### Invariants -/

/-- Every step of every kind, from every sound state, reaches a sound state: legal configuration, canonical store,
one-hot mask, Timer below 2^TIMER_BITS. -/
def Obligations.EveryStepKeepsTheStateSound : Prop :=
  ∀ s t : State, Sound s → step s = .next t → Sound t

/-- The invariants of 10_state R40, made inductive over the handler's positions, are kept by every step that comes from
the line or the power-on port. -/
def Obligations.EveryWireStepKeepsTheSessionInvariants : Prop :=
  ∀ s t : State, Inv s → wireOnly s = true → step s = .next t → Inv t ∧ wireOnly t = true

/-- The invariants hold at power-on, for every legal configuration and every store in canonical form, and at the model's
reset state (whose configuration is the model's choice, assumption 1). -/
def Obligations.PowerOnMeetsTheInvariants : Prop :=
  (∀ (c : Config) (m : Memory) (low : Bool) (input : List Input), configLegal c = true → m.wf = true →
    Inv (State.powerOn c m low input))
  ∧ Inv State.reset

/-- No step writes the identity store or the configuration: every address reads as before (10_state R33, R38). -/
def Obligations.NoStepWritesIdentityOrConfiguration : Prop :=
  ∀ s t : State, step s = .next t → (∀ a, readByte t.mem a = readByte s.mem a) ∧ t.mem = s.mem ∧ t.cfg = s.cfg

/-- The frame common to every row of the table: no operation writes the identity store (every address reads as before),
the configuration, the queue or the latched low time, and none clears the interrupt enable (42_hw_interface R211). -/
def Obligations.EveryOperationKeepsIdentityConfigurationAndQueue : Prop :=
  ∀ (i : Instr) (s t : State), exec i s = .next t →
    (∀ a, readByte t.mem a = readByte s.mem a) ∧ t.cfg = s.cfg ∧ t.input = s.input ∧ t.lowTicks = s.lowTicks
    ∧ (s.device.irqEnable = true → t.device.irqEnable = true)

/-! ### Power-on -/

/-- The power-on values of 10_state R41 column 2 for every register the spec gives one, with the line level of tick 0 in
`prev_line`. -/
def Obligations.PowerOnLeavesTheListedValues : Prop :=
  ∀ (c : Config) (m : Memory) (low : Bool) (input : List Input),
    let s := State.powerOn c m low input
    s.session =
      { expectingRead := false, deferredSwitchToWrite := false, possibleReset := false, timerOverflow := false,
        invertNextReadBit := false, pendingBitValue := true, commandState := .idle, byteIndex := 0, bitMask := 0x01#8,
        accumulatedCommand := 0x00#8, read0Armed := false }
    ∧ s.device.driveLow = false ∧ s.device.tau = 0 ∧ s.device.timerRunning = false ∧ s.device.irqPending = false
    ∧ s.device.irqEnable = true ∧ s.device.prevLine = (!low) ∧ s.phase = .wait ∧ s.mem = m

/-! ### The hardware interface -/

/-- `release()` and `drive_low()` set the driver and nothing else; the next tick's line shows it; `drive_low()` twice is
`drive_low()` once (42_hw_interface R201, R202). -/
def Obligations.LineDriverPrimitivesSetTheDriver : Prop :=
  ∀ (s : State) (low : Bool),
    (∃ t, exec .setInputMode s = .next t ∧ t = { s with device := { s.device with driveLow := false } }
      ∧ (endOfTick low t).device.lineNow = !low)
    ∧ (∃ t, exec .setDrivenLow s = .next t ∧ t = { s with device := { s.device with driveLow := true } }
      ∧ (endOfTick low t).device.lineNow = false ∧ exec .setDrivenLow t = .next t)

/-- `start()`, `stop()`, `resetToZero()` (42_hw_interface R204 to R206): what each writes, and the Timer at the end of
the tick: one count on, held, and 1 if running else 0 (40_pulse_classifier R111). -/
def Obligations.TimerPrimitivesControlTheCount : Prop :=
  ∀ (s : State) (low : Bool),
    (∃ t, exec .timerStart s = .next t ∧ t = { s with device := { s.device with timerRunning := true } }
      ∧ (endOfTick low t).device.tau = (s.device.tau + 1) % 2 ^ s.cfg.timerBits)
    ∧ (∃ t, exec .timerStop s = .next t ∧ t = { s with device := { s.device with timerRunning := false } }
      ∧ (endOfTick low t).device.tau = s.device.tau)
    ∧ (∃ t, exec .timerResetToZero s = .next t ∧ t = { s with device := { s.device with tau := 0 } }
      ∧ (endOfTick low t).device.tau = if s.device.timerRunning then 1 % 2 ^ s.cfg.timerBits else 0)

/-- `readLevel()` and `readTicks()` return the sample and the count of the current tick and have no side effect
(42_hw_interface R203, R207); the return ports are the model's (assumption 24). -/
def Obligations.ReadPrimitivesHaveNoSideEffect : Prop :=
  ∀ s : State,
    exec .readLevel s = .next { s with retBit := s.device.lineNow }
    ∧ exec .timerReadTicks s = .next { s with retTicks := s.device.tau }

/-- `clearPendingFlag()` clears the pending flag at the end of the tick unless an edge is seen in it;
`enableGlobalInterrupts()` sets the enable (42_hw_interface R210, R211). -/
def Obligations.InterruptPrimitivesClearAndEnable : Prop :=
  ∀ (s : State) (low : Bool),
    (∃ t, exec .clearPendingFlag s = .next t ∧ t = { s with device := { s.device with clearNow := true } }
      ∧ (endOfTick low t).device.irqPending = (s.device.prevLine && !s.device.lineNow))
    ∧ exec .enableGlobalInterrupts s = .next { s with device := { s.device with irqEnable := true } }

/-- `configureFallingEdge(source)` has no effect on any register, whichever source (42_hw_interface R209). -/
def Obligations.EdgeSourceHasNoEffect : Prop :=
  ∀ (s : State) (src : EdgeSource), exec (.configureFallingEdge src) s = .next s

/-- TO is set in the tick in which the running Timer goes from 2^TIMER_BITS - 1 to 0, and stays set (42_hw_interface
R208): at the end of a tick, and by the operation (whose reading is the model's, assumption 18). -/
def Obligations.TimerWrapSetsTheOverflowFlag : Prop :=
  ∀ (s : State) (low : Bool), s.device.tau < 2 ^ s.cfg.timerBits →
    let wraps : Prop := s.device.timerRunning = true ∧ s.device.tau = 2 ^ s.cfg.timerBits - 1
    (wraps → (endOfTick low s).device.tau = 0 ∧ (endOfTick low s).session.timerOverflow = true
      ∧ exec .timerOverflowIndicator s = .next { s with session := { s.session with timerOverflow := true } })
    ∧ (¬ wraps → (endOfTick low s).session.timerOverflow = s.session.timerOverflow
      ∧ exec .timerOverflowIndicator s = .next s)

/-! ### The protocol engine -/

/-- `onReset()` (41_protocol_engine R161): its register list and nothing else; two in a row are one. -/
def Obligations.OnResetClearsTheCommandState : Prop :=
  ∀ s : State, ∃ t, exec .onReset s = .next t ∧ exec .onReset t = .next t
    ∧ t = { s with session := { s.session with
        accumulatedCommand := 0x00#8, byteIndex := 0, bitMask := 0x01#8, commandState := .resetReceived,
        expectingRead := false, deferredSwitchToWrite := false, possibleReset := false,
        invertNextReadBit := false } }

/-- `onWriteBit(bit)` is, by CommandState, the accumulation of R163, the comparison of R167, or nothing
(41_protocol_engine R162, R168). -/
def Obligations.OnWriteBitDependsOnCommandState : Prop :=
  ∀ (s : State) (bit : Bool),
    (s.session.commandState = .resetReceived →
      ∃ t, exec (.onWriteBit bit) s = .next t ∧ exec (.onWriteBitResetReceived bit) s = .next t)
    ∧ (s.session.commandState = .discover →
      ∃ t, exec (.onWriteBit bit) s = .next t ∧ exec (.onWriteBitDiscover bit) s = .next t)
    ∧ (s.session.commandState = .idle ∨ s.session.commandState = .reportIdentity →
      exec (.onWriteBit bit) s = .next s)
    ∧ exec (.onWriteBitIdleOrReportIdentity bit) s = .next s

/-- Command accumulation (41_protocol_engine R163): the bit is OR-ed in at the mask; the mask doubles, and on the eighth
bit returns to 0x01 and the command row that the byte spells is run. -/
def Obligations.CommandBitIsAccumulated : Prop :=
  ∀ (s : State) (bit : Bool),
    let acc := if bit then s.session.accumulatedCommand ||| s.session.bitMask else s.session.accumulatedCommand
    (s.session.bitMask ≠ 0x80#8 →
      exec (.onWriteBitResetReceived bit) s = .next { s with session := { s.session with
        accumulatedCommand := acc, bitMask := s.session.bitMask <<< 1 } })
    ∧ (s.session.bitMask = 0x80#8 →
      let u := { s with session := { s.session with accumulatedCommand := acc, bitMask := 0x01#8 } }
      (acc = 0x33#8 → ∃ t, exec .readIdentity u = .next t ∧ exec (.onWriteBitResetReceived bit) s = .next t)
      ∧ (acc ≠ 0x33#8 → acc = s.cfg.cmdDiscover →
        ∃ t, exec .discover u = .next t ∧ exec (.onWriteBitResetReceived bit) s = .next t)
      ∧ (acc ≠ 0x33#8 → acc ≠ s.cfg.cmdDiscover →
        exec (.onWriteBitResetReceived bit) s =
          .next { u with session := { u.session with commandState := .idle } }))

/-- READ_IDENTITY (41_protocol_engine R164, its pseudocode): ReportIdentity, read mode, the first identity bit preloaded
and the cursor at bit 1, nothing else. That the preload advances the cursor is the spec's own choice (D16, R173); that
the row called by itself is the dispatch alone is the model's reading (assumption 29), and that armed is then left as it
was is the model's choice (assumption 31, DESIGN CHOICE). -/
def Obligations.ReadIdentityStartsTheReport : Prop :=
  ∀ s : State,
    exec .readIdentity s = .next { s with session := { s.session with
      commandState := .reportIdentity, byteIndex := 0, bitMask := 0x02#8, expectingRead := true,
      deferredSwitchToWrite := false, pendingBitValue := identityBit s.mem 0 } }

/-- DISCOVER (41_protocol_engine R165, its pseudocode): Discover, read mode, the first identity bit preloaded, the
cursor at bit 0, nothing else. That the preload leaves INV set is the spec's own choice (D16, R173); that the row called
by itself is the dispatch alone is the model's reading (assumption 29), and that armed is then left as it was is the
model's choice (assumption 31, DESIGN CHOICE). -/
def Obligations.DiscoverStartsTheRound : Prop :=
  ∀ s : State,
    exec .discover s = .next { s with session := { s.session with
      commandState := .discover, byteIndex := 0, bitMask := 0x01#8, expectingRead := true,
      deferredSwitchToWrite := false, invertNextReadBit := true, pendingBitValue := identityBit s.mem 0 } }

/-- An unknown command returns to Idle and writes nothing else (41_protocol_engine R166, its pseudocode; D18). That the
row called by itself is the dispatch alone, with ACC kept whatever it holds, is the model's reading (assumption 29,
DEDUCED); that armed and PBV are then left as they were is the model's choice (assumption 31, DESIGN CHOICE). -/
def Obligations.UnknownCommandReturnsToIdle : Prop :=
  ∀ (s : State) (c : Byte),
    exec (.cmdOther c) s = .next { s with session := { s.session with commandState := .idle } }

/-- `onWriteBit` in Discover (41_protocol_engine R167): a mismatch with the true identity bit goes to Idle and writes
nothing else; a match advances the cursor and then switches to read mode. -/
def Obligations.DiscoverWriteComparesWithTheTrueBit : Prop :=
  ∀ (s : State) (bit : Bool),
    let v : Bool := decide (identityByte s.mem s.session.byteIndex &&& s.session.bitMask ≠ 0x00#8)
    (bit ≠ v → exec (.onWriteBitDiscover bit) s =
      .next { s with session := { s.session with commandState := .idle } })
    ∧ (bit = v → ∃ u t, exec .advanceCursor s = .next u ∧ exec .switchToReadMode u = .next t
        ∧ exec (.onWriteBitDiscover bit) s = .next t)

/-- `onReadBitRequested()` is, by CommandState, the rule of ReportIdentity, of Discover, or the constant 1 with nothing
written (41_protocol_engine R169, R172); the return port is the model's (assumption 24). -/
def Obligations.OnReadBitRequestedDependsOnCommandState : Prop :=
  ∀ s : State,
    (s.session.commandState = .reportIdentity →
      ∃ t, exec .onReadBitRequested s = .next t ∧ exec .onReadBitReportIdentity s = .next t)
    ∧ (s.session.commandState = .discover →
      ∃ t, exec .onReadBitRequested s = .next t ∧ exec .onReadBitDiscover s = .next t)
    ∧ (s.session.commandState = .idle ∨ s.session.commandState = .resetReceived →
      exec .onReadBitRequested s = .next { s with retBit := true })
    ∧ exec .onReadBitIdleOrResetReceived s = .next { s with retBit := true }

/-- `onReadBitRequested` in ReportIdentity returns the identity bit at the cursor and advances the cursor
(41_protocol_engine R170). The bit is on the return port, which is the model's (assumption 24). -/
def Obligations.ReportReturnsTheIdentityBit : Prop :=
  ∀ s : State, ∃ u, exec .advanceCursor s = .next u
    ∧ exec .onReadBitReportIdentity s =
        .next { u with retBit := decide (identityByte s.mem s.session.byteIndex &&& s.session.bitMask ≠ 0x00#8) }

/-- `onReadBitRequested` in Discover (41_protocol_engine R171): the true bit with INV clear, the complement with INV
set; INV toggles, DSW is set after the complement, the cursor stays. The bit is on the return port, which is the model's
(assumption 24). -/
def Obligations.DiscoverAlternatesTrueAndComplement : Prop :=
  ∀ s : State,
    let v : Bool := decide (identityByte s.mem s.session.byteIndex &&& s.session.bitMask ≠ 0x00#8)
    (s.session.invertNextReadBit = false →
      exec .onReadBitDiscover s =
        .next { s with retBit := v, session := { s.session with invertNextReadBit := true } })
    ∧ (s.session.invertNextReadBit = true →
      exec .onReadBitDiscover s = .next { s with
        retBit := !v,
        session := { s.session with invertNextReadBit := false, deferredSwitchToWrite := true } })

/-- `switchToReadMode()` (41_protocol_engine R173): `ER <- 1; DSW <- 0; PBV <- onReadBitRequested()`. The statement
reads the bit that `onReadBitRequested` returns from the return port, which is the model's (assumption 24), and the
operation itself leaves that port as it was. -/
def Obligations.SwitchToReadModePreloadsTheBit : Prop :=
  ∀ s : State, ∃ u,
    exec .onReadBitRequested
      { s with session := { s.session with expectingRead := true, deferredSwitchToWrite := false } } = .next u
    ∧ exec .switchToReadMode s =
        .next { u with retBit := s.retBit, session := { u.session with pendingBitValue := u.retBit } }

/-- The deferred switch to write (41_protocol_engine R174): requesting it sets DSW alone (assumption 17), and the next
`rearm()` applies it: `ER <- 0; DSW <- 0`, PBV kept. -/
def Obligations.DeferredSwitchIsAppliedByRearm : Prop :=
  ∀ s : State, ∃ t, exec .deferredSwitchToWrite s = .next t
    ∧ t = { s with session := { s.session with deferredSwitchToWrite := true } }
    ∧ exec .rearm t =
        .next { s with session := { s.session with expectingRead := false, deferredSwitchToWrite := false } }

/-- `advanceCursor()` (41_protocol_engine R176), its three cases. -/
def Obligations.AdvanceCursorMovesOneBit : Prop :=
  ∀ s : State,
    (s.session.bitMask ≠ 0x80#8 →
      exec .advanceCursor s = .next { s with session := { s.session with bitMask := s.session.bitMask <<< 1 } })
    ∧ (s.session.bitMask = 0x80#8 → s.session.byteIndex ≠ 7 →
      exec .advanceCursor s = .next { s with session := { s.session with
        bitMask := 0x01#8, byteIndex := s.session.byteIndex + 1 } })
    ∧ (s.session.bitMask = 0x80#8 → s.session.byteIndex = 7 →
      exec .advanceCursor s = .next { s with session := { s.session with
        bitMask := 0x01#8, byteIndex := 0, commandState := .idle } })

/-- The cursor walks the 64 positions in transfer order (20_memory R62, 41_protocol_engine R176): `n` advances from `(0,
0x01)` stand at byte `n / 8`, bit `n % 8`, with CommandState unchanged; the 64th returns to `(0, 0x01)` in Idle. -/
def Obligations.CursorWalksTheSixtyFourBits : Prop :=
  ∀ x : Session, x.byteIndex = 0 → x.bitMask = 0x01#8 →
    (∀ n : Fin 64, Session.advanceCursor^[n.val] x =
      { x with byteIndex := ⟨n.val / 8, by omega⟩, bitMask := 0x01#8 <<< (n.val % 8) })
    ∧ Session.advanceCursor^[64] x = { x with commandState := .idle }

/-! ### Steps of the handler -/

/-- `rearm()` (40_pulse_classifier R126): the deferred switch, or the next bit prepared. The statement reads the bit
that `onReadBitRequested` returns from the return port, which is the model's (assumption 24), and the operation itself
leaves that port as it was. -/
def Obligations.RearmSwitchesOrPreparesTheNextBit : Prop :=
  ∀ s : State,
    (s.session.deferredSwitchToWrite = true →
      exec .rearm s =
        .next { s with session := { s.session with expectingRead := false, deferredSwitchToWrite := false } })
    ∧ (s.session.deferredSwitchToWrite = false →
      ∃ u, exec .onReadBitRequested s = .next u
        ∧ exec .rearm s =
            .next { u with retBit := s.retBit, session := { u.session with pendingBitValue := u.retBit } })

/-- Reset finalisation in one tick (40_pulse_classifier R127, R114): with PR set, the overflow flag or the Reset
threshold clears PR and runs RESET; else a line seen high clears PR; else the handler waits in P_RSTPOLL. Without PR it
does not run. That the row stands for one tick of the loop is the model's choice (assumption 19). -/
def Obligations.ResetFinalisationPollsTimerThenLine : Prop :=
  ∀ s : State,
    let u := { s with session := { s.session with possibleReset := false } }
    (s.session.possibleReset = false → exec .resetFinalisation s = .next s)
    ∧ (s.session.possibleReset = true →
      (s.session.timerOverflow = true ∨ s.cfg.tRstMin ≤ s.device.tau →
        ∃ t, exec .reset u = .next t ∧ exec .resetFinalisation s = .next t)
      ∧ (s.session.timerOverflow = false → s.device.tau < s.cfg.tRstMin →
        (s.device.lineNow = true → exec .resetFinalisation s = .next u)
        ∧ (s.device.lineNow = false → exec .resetFinalisation s = .next { s with phase := .rstPoll })))

/-- RESET up to its first wait (40_pulse_classifier R128): the event, `onReset()`, then either the wait for release, or
on a line already high `timer_reset()` and the idle interval. That the row stops at its first wait is the model's choice
(assumption 19). The event list is the model's tap (assumption 25). -/
def Obligations.ResetRunsUpToItsFirstWait : Prop :=
  ∀ s : State, configLegal s.cfg = true → ∃ u, exec .onReset s = .next u
    ∧ (s.device.lineNow = false →
      exec .reset s = .next { u with phase := .relWait, events := s.events ++ [.reset] })
    ∧ (s.device.lineNow = true →
      exec .reset s = .next { u with phase := .idleHold, events := s.events ++ [.reset],
                                     device := { s.device with tau := 0 } })

/-- Handler exit (40_pulse_classifier R129): the fast-path flag is recorded, the Timer stopped, the phase P_WAIT. -/
def Obligations.HandlerExitRecordsTheFastPathFlag : Prop :=
  ∀ s : State,
    exec .handlerExit s = .next { s with
      session := { s.session with read0Armed := s.session.expectingRead && !s.session.pendingBitValue },
      device := { s.device with timerRunning := false },
      phase := .wait }

/-! ### Whole passes -/

/-- GLITCH in write mode and on the fast path (40_pulse_classifier R120, R121): the session state is unchanged; the pass
has cleared the pending flag and stopped the Timer at the small count (D32; the Timer and line at return are assumption
12, its count from the state's `lowTicks` assumption 23). The latency counter 0 after a pass is assumption 5, the event
list the model's tap (assumption 25). -/
def Obligations.GlitchLeavesTheSessionUnchanged : Prop :=
  ∀ (s : State) (b : Band),
    exec (.glitch b) s = .next (afterPass s s.device.driveLow false s.lowTicks [.glitch] s.session)
    ∧ exec .glitchFast s = .next (afterPass s s.device.driveLow false s.lowTicks [.glitch] s.session)

/-- WRITE1 (40_pulse_classifier R122): `PBV <- 1`, `onWriteBit(1)`, handler exit. With PR and TO both set at entry the
pass ends in a RESET (93_implementation_defined U5; assumption 16). The Timer and line at return are assumption 12, its
count from the state's `lowTicks` assumption 23; the pending flag after a RESET with T_PRES = 1 is assumption 14. The
latency counter 0 after a pass is assumption 5, the event list the model's tap (assumption 25). -/
def Obligations.WriteOneDeliversTheBit : Prop :=
  ∀ (s : State) (b : Band) (k : Bool), ∃ u,
    exec (.onWriteBit true) { s with session := { s.session with pendingBitValue := true } } = .next u
    ∧ ((s.session.possibleReset && s.session.timerOverflow) = false →
      exec (.write1Short b) s = .next (afterPass s s.device.driveLow false s.lowTicks [.write1] (passEnd u.session))
      ∧ exec (.write1BandB k) s = .next (afterPass s s.device.driveLow false s.lowTicks [.write1] (passEnd u.session)))
    ∧ ((s.session.possibleReset && s.session.timerOverflow) = true →
      exec (.write1Short b) s = .next (afterResetPass s [.write1, .reset] u.session.pendingBitValue)
      ∧ exec (.write1BandB k) s = .next (afterResetPass s [.write1, .reset] u.session.pendingBitValue))

/-- WRITE0 (40_pulse_classifier R123): `PBV <- 0; PR <- 1`, `onWriteBit(0)`, then Reset finalisation: released clears
PR; a Reset (band D, or TO set: 30_encoding R93) leaves the session state of 10_state R41 column 3. The Timer and line
at return are assumption 12, its count from the state's `lowTicks` assumption 23; the pending flag after a RESET with
T_PRES = 1 is assumption 14. The latency counter 0 after a pass is assumption 5, the event list the model's tap
(assumption 25). -/
def Obligations.WriteZeroDeliversTheBitOrResets : Prop :=
  ∀ (s : State) (k : Bool), ∃ u,
    exec (.onWriteBit false) { s with session := { s.session with pendingBitValue := false, possibleReset := true } }
      = .next u
    ∧ (s.session.timerOverflow = false →
      exec (.write0 k) s = .next (afterPass s s.device.driveLow false s.lowTicks [.write0] (passEnd u.session)))
    ∧ (s.session.timerOverflow = true →
      exec (.write0 k) s = .next (afterResetPass s [.write0, .reset] u.session.pendingBitValue))
    ∧ exec (.write0Reset k) s = .next (afterResetPass s [.write0, .reset] u.session.pendingBitValue)

/-- READ1 (40_pulse_classifier R124): `rearm()`, then Reset finalisation as for WRITE0; the driver is left as it was.
The Timer and line at return are assumption 12, its count from the state's `lowTicks` assumption 23; the pending flag
after a RESET with T_PRES = 1 is assumption 14. The latency counter 0 after a pass is assumption 5, the event list the
model's tap (assumption 25). -/
def Obligations.ReadOneRearmsOrResets : Prop :=
  ∀ (s : State) (k : Bool) (b : Band), ∃ u, exec .rearm s = .next u
    ∧ (s.session.timerOverflow = false →
      exec (.read1 k b) s = .next (afterPass s s.device.driveLow false s.lowTicks [.read1] (passEnd u.session)))
    ∧ (s.session.timerOverflow = true →
      exec (.read1 k b) s = .next (afterResetPass s [.read1, .reset] u.session.pendingBitValue))
    ∧ exec (.read1Reset k) s = .next (afterResetPass s [.read1, .reset] u.session.pendingBitValue)

/-- READ0 (40_pulse_classifier R125): the driver ends released, `rearm()`, then Reset finalisation as for WRITE0. In
band Z with SKIP clear the slave's own assertion leaves the pending flag set (70_reset_and_hazards R274; assumption 13).
That bands Z to C end without RESET in every configuration, also with T_R0EXT = T_RSTMIN - 1, is assumption 15. The
Timer and line at return are assumption 12, its count from the state's `lowTicks` assumption 23; the pending flag after
a RESET with T_PRES = 1 is assumption 14. The latency counter 0 after a pass is assumption 5, the event list the model's
tap (assumption 25). -/
def Obligations.ReadZeroRearmsOrResets : Prop :=
  ∀ (s : State) (k : Bool) (b : Band), ∃ u, exec .rearm s = .next u
    ∧ (s.session.timerOverflow = false →
      exec (.read0BandA k) s = .next (afterPass s false false (read0Return s) [.read0] (passEnd u.session))
      ∧ exec (.read0BandBC k b) s = .next (afterPass s false false (read0Return s) [.read0] (passEnd u.session))
      ∧ exec .read0BandZ s = .next (afterPass s false true (read0Return s) [.read0] (passEnd u.session)))
    ∧ (s.session.timerOverflow = true →
      exec (.read0BandA k) s = .next (afterResetPass s [.read0, .reset] u.session.pendingBitValue)
      ∧ exec (.read0BandBC k b) s = .next (afterResetPass s [.read0, .reset] u.session.pendingBitValue)
      ∧ exec .read0BandZ s = .next (afterResetPass s [.read0, .reset] u.session.pendingBitValue))
    ∧ exec (.read0Reset k) s = .next (afterResetPass s [.read0, .reset] u.session.pendingBitValue)

/-- The unreachable rows decode as the armed rows of the same band (30_encoding R84, 40_pulse_classifier R113). -/
def Obligations.ArmedWithoutReadModeActsAsArmed : Prop :=
  ∀ (s : State) (k : Bool), ∃ glitched phantom held reset,
    exec .glitchFast s = .next glitched ∧ exec .read0BandZ s = .next phantom
    ∧ exec (.read0BandA k) s = .next held ∧ exec (.read0Reset k) s = .next reset
    ∧ exec (.armedNotER true .bandZ) s = .next glitched
    ∧ exec (.armedNotER false .bandZ) s = .next phantom
    ∧ exec (.armedNotER k .bandA) s = .next held
    ∧ exec (.armedNotER k .bandB) s = .next held
    ∧ exec (.armedNotER k .bandC) s = .next held
    ∧ exec (.armedNotER k .bandD) s = .next reset

/-! ### Commands and transfers -/

/-- F-CMD8 (30_encoding R87, R88): from the state after a Reset, eight write slots spell a byte, least-significant bit
first: the byte is in ACC, the command it selects has been dispatched, and no other session register has changed. `long
i` is the low time of slot `i`: for a 1 any value that R84 makes WRITE1 (band B, and with SKIP clear bands Z and A), for
a 0 any value in band C. -/
def Obligations.EightWriteSlotsSpellTheCommand : Prop :=
  ∀ (s : State) (c : Byte) (long : Nat → Nat),
    configLegal s.cfg = true → pulseAccepted s = true → s.session.timerOverflow = false →
    s.session.possibleReset = false → s.session.commandState = .resetReceived → s.session.expectingRead = false →
    s.session.read0Armed = false → s.session.byteIndex = 0 → s.session.bitMask = 0x01#8 →
    s.session.accumulatedCommand = 0x00#8 →
    (∀ i < 8, if c.getLsbD i then (s.cfg.skip = true → s.cfg.tW1Min ≤ long i) ∧ long i < s.cfg.tW0Min
      else s.cfg.tW0Min ≤ long i ∧ long i < s.cfg.tRstMin) →
    ∃ t, Sys2Proof.core.run 8 { s with input := (List.range 8).map fun i => Input.pulse (long i) } = .next t
      ∧ pulseAccepted t = true ∧ t.mem = s.mem ∧ t.cfg = s.cfg ∧ t.input = []
      ∧ t.retBit = s.retBit ∧ t.retTicks = s.retTicks ∧ t.device.timerRunning = false
      ∧ (c = 0x33#8 → t.session = { s.session with
          accumulatedCommand := c, commandState := .reportIdentity, expectingRead := true,
          deferredSwitchToWrite := false, bitMask := 0x02#8, pendingBitValue := identityBit s.mem 0,
          read0Armed := !(identityBit s.mem 0) })
      ∧ (c = s.cfg.cmdDiscover → t.session = { s.session with
          accumulatedCommand := c, commandState := .discover, expectingRead := true,
          deferredSwitchToWrite := false, invertNextReadBit := true, pendingBitValue := identityBit s.mem 0,
          read0Armed := !(identityBit s.mem 0) })
      ∧ (c ≠ 0x33#8 → c ≠ s.cfg.cmdDiscover → t.session = { s.session with
          accumulatedCommand := c, commandState := .idle, pendingBitValue := c.getLsbD 7 })

/-- F-ID64 (30_encoding R90, 41_protocol_engine R179): from the state that READ_IDENTITY leaves, 64 read slots are
answered with identity bits 0 to 63 in order, whatever the identity; the block ends in Idle with the cursor at its start
and the next read slot to be answered 1. The slots are band-B pulses (the model's choice, assumption 23); that a READ0
slot ends without RESET in every configuration is assumption 15. The latency counter 0 after a pass is assumption 5, the
event list the model's tap (assumption 25). -/
def Obligations.SixtyFourReadSlotsReportTheIdentity : Prop :=
  ∀ s : State, s.session.commandState = .reportIdentity → s.session.expectingRead = true →
    s.session.deferredSwitchToWrite = false → s.session.timerOverflow = false → s.session.byteIndex = 0 →
    s.session.bitMask = 0x02#8 → s.session.pendingBitValue = identityBit s.mem 0 →
    s.session.read0Armed = !s.session.pendingBitValue →
    ∃ t, exec .id64 s = .next t ∧ TransferFrame s t ∧ t.input = s.input
      ∧ t.events = (List.range 64).map (fun n => readEvent (identityBit s.mem n))
      ∧ t.session = { s.session with
          commandState := .idle, byteIndex := 0, bitMask := 0x01#8, pendingBitValue := true, possibleReset := false,
          read0Armed := false }

/-- F-TRIPLET (30_encoding R91, 41_protocol_engine R180): from the state before the first slot of a triplet at identity
bit `n`, the slots answer the bit and its complement and take the master's choice `w`; a match advances to the next
triplet, or to Idle after bit 63; a mismatch drops out. The slots are band-B and band-C pulses (the model's choice,
assumption 23); that a READ0 slot ends without RESET in every configuration is assumption 15. The latency counter 0
after a pass is assumption 5, the event list the model's tap (assumption 25). -/
def Obligations.TripletTransfersOneIdentityBit : Prop :=
  ∀ (s : State) (w : Bool) (n : Nat) (hn : n < 64), s.session.commandState = .discover →
    s.session.expectingRead = true →
    s.session.deferredSwitchToWrite = false → s.session.invertNextReadBit = true → s.session.timerOverflow = false →
    s.session.byteIndex = ⟨n / 8, by omega⟩ → s.session.bitMask = 0x01#8 <<< (n % 8) →
    s.session.pendingBitValue = identityBit s.mem n → s.session.read0Armed = !s.session.pendingBitValue →
    let v := identityBit s.mem n
    ∃ t, exec (.triplet w) s = .next t ∧ TransferFrame s t ∧ t.input = s.input
      ∧ t.events = [readEvent v, readEvent (!v), writeEvent w]
      ∧ (w ≠ v → t.session = { s.session with
          commandState := .idle, expectingRead := false, invertNextReadBit := false, pendingBitValue := w,
          possibleReset := false, read0Armed := false })
      ∧ (w = v → (hlt : n + 1 < 64) → t.session = { s.session with
          byteIndex := ⟨(n + 1) / 8, by omega⟩, bitMask := 0x01#8 <<< ((n + 1) % 8),
          pendingBitValue := identityBit s.mem (n + 1), possibleReset := false,
          read0Armed := !(identityBit s.mem (n + 1)) })
      ∧ (w = v → n = 63 → t.session = { s.session with
          commandState := .idle, invertNextReadBit := false, byteIndex := 0, bitMask := 0x01#8,
          pendingBitValue := true, possibleReset := false, read0Armed := false })

/-- The discovery round trip (41_protocol_engine R180): a master that always echoes the true bit takes the block through
64 triplets, in 64 steps, to Idle with the cursor at its start and no mismatch. The triplets are operation words (the
model's choice, assumptions 9 and 23); that a READ0 slot ends without RESET in every configuration is assumption 15. The
latency counter 0 after a pass is assumption 5. -/
def Obligations.DiscoverRoundTripReturnsToIdle : Prop :=
  ∀ s : State, configLegal s.cfg = true → s.session.commandState = .discover → s.session.expectingRead = true →
    s.session.deferredSwitchToWrite = false → s.session.invertNextReadBit = true → s.session.timerOverflow = false →
    s.session.byteIndex = 0 → s.session.bitMask = 0x01#8 → s.session.pendingBitValue = identityBit s.mem 0 →
    s.session.read0Armed = !s.session.pendingBitValue →
    let echo (n : Nat) : Input := .word (encode s.cfg.cmdDiscover (.triplet (identityBit s.mem n)))
    ∃ t, Sys2Proof.core.run 64 { s with input := (List.range 64).map echo } = .next t
      ∧ TransferFrame s t ∧ t.input = []
      ∧ t.session = { s.session with
          commandState := .idle, invertNextReadBit := false, byteIndex := 0, bitMask := 0x01#8,
          pendingBitValue := true, possibleReset := false, read0Armed := false }

/-! ### The tick level -/

/-- The two levels agree (00_scope R10, 40_pulse_classifier R130, R131, R134): from any state at rest with the line
high, ticking through the waveform of a pulse up to the tick after the return tick gives exactly the state of one
event-level step, in every field. The session state is arbitrary but for PR and TO (R131 f). A Read-0 hold that ends one
tick before the Reset threshold is excluded (assumption 15). Covered beyond the envelope: a pulse over at the first
action of an armed pass with SKIP clear (assumption 13, outside R131 d), and T_PRES = 1 (assumption 14). -/
def Obligations.TickLevelRealisesTheEventLevel : Prop :=
  ∀ (s : State) (lowTicks : Nat), configLegal s.cfg = true → s.cfg.tR0Ext + 1 < s.cfg.tRstMin →
    pulseAccepted s = true → s.device.timerRunning = false → s.session.possibleReset = false →
    s.session.timerOverflow = false → s.input = [] →
    step { s with input := [.pulse lowTicks] }
      = .next (tickList (pulseWaveform s lowTicks) { s with lowTicks := lowTicks })

/-- The pending flag, `prev_line` and the line at the end of a tick (10_state R36, R21; 60_exceptions R229): an edge
wins over a clear. -/
def Obligations.EdgeDetectorRunsEveryTick : Prop :=
  ∀ (s : State) (low : Bool),
    let d := (endOfTick low s).device
    d.irqPending = ((s.device.irqPending && !s.device.clearNow) || (s.device.prevLine && !s.device.lineNow))
    ∧ d.prevLine = s.device.lineNow ∧ d.lineNow = (!(low || s.device.driveLow)) ∧ d.clearNow = false
    ∧ d.driveLow = s.device.driveLow ∧ d.irqEnable = s.device.irqEnable

/-- The single-writer rule (10_state R42): a tick in which the handler is not running and no interrupt is taken changes
no session register but TO, and no register of the handler or the line driver. -/
def Obligations.QuietTickTouchesNoSessionState : Prop :=
  ∀ (s : State) (low : Bool), s.phase = .wait → (s.device.irqPending = false ∨ s.device.irqEnable = false) →
    let t := tick low s
    t.session = { s.session with timerOverflow := t.session.timerOverflow }
    ∧ (s.device.timerRunning = false → t.session = s.session ∧ t.device.tau = s.device.tau)
    ∧ t.phase = .wait ∧ t.latCount = s.latCount ∧ t.device.driveLow = s.device.driveLow
    ∧ t.device.timerRunning = s.device.timerRunning ∧ t.device.irqEnable = s.device.irqEnable ∧ t.mem = s.mem
    ∧ t.cfg = s.cfg ∧ t.events = s.events

/-- The handler is not re-entrant (60_exceptions R231): while it runs, the pending flag does not enter what it does; an
edge only sets the flag. -/
def Obligations.RunningHandlerIgnoresThePendingFlag : Prop :=
  ∀ (s : State) (pending : Bool), s.phase ≠ .wait →
    handlerTick { s with device := { s.device with irqPending := pending } }
      = { handlerTick s with device := { (handlerTick s).device with irqPending := pending } }

/-- The fast path's timing (40_pulse_classifier R112, R125; 70_reset_and_hazards R270, R290): from the tick `t_e` of a
falling edge, armed and with the filter off or the master still low at the first action, the slave holds the line low in
exactly the ticks `t_e + LAT + 1` to `t_e + LAT + T_R0EXT`, whatever the master does. -/
def Obligations.ReadZeroHoldIsTimedFromTheEdge : Prop :=
  ∀ (s : State) (lows : List Bool), configLegal s.cfg = true → s.phase = .wait → s.session.read0Armed = true →
    s.device.irqPending = false → s.device.irqEnable = true → s.device.driveLow = false →
    s.device.timerRunning = false → s.device.prevLine = true → s.device.lineNow = false →
    (s.cfg.skip = true → ∀ m ∈ lows.take s.cfg.lat, m = true) →
    lows.length ≤ s.cfg.lat + s.cfg.tR0Ext + 1 →
    (tickList lows s).device.driveLow
      = (decide (s.cfg.lat + 1 ≤ lows.length) && decide (lows.length ≤ s.cfg.lat + s.cfg.tR0Ext))

/-- The presence waveform (30_encoding R94, 40_pulse_classifier R128): from the first high tick `t_r` after a RESET, the
slave holds the line low in exactly the ticks `t_r + T_IDLE + 1` to `t_r + T_IDLE + T_PRES`, whatever the master does,
and the handler has returned, with TO clear, after tick `t_r + T_IDLE + T_PRES`. The pending flag is then set only by an
edge of that very tick (60_exceptions R232 point 3, 70_reset_and_hazards R276): never with T_PRES at least 2, and with
T_PRES = 1 if the master left the line high one tick before (assumption 14). -/
def Obligations.PresencePulseIsTimedFromTheRelease : Prop :=
  ∀ (s : State) (lows : List Bool), configLegal s.cfg = true → s.phase = .relWait → s.device.lineNow = true →
    s.device.driveLow = false → s.device.timerRunning = true →
    lows.length ≤ s.cfg.tIdle + s.cfg.tPres + 1 →
    (tickList lows s).device.driveLow
      = (decide (s.cfg.tIdle + 1 ≤ lows.length) && decide (lows.length ≤ s.cfg.tIdle + s.cfg.tPres))
    ∧ (lows.length = s.cfg.tIdle + s.cfg.tPres + 1 →
      (tickList lows s).phase = .wait ∧ (tickList lows s).session.timerOverflow = false
      ∧ (tickList lows s).device.timerRunning = false
      ∧ (let last := (tickList lows.dropLast s).device
        (tickList lows s).device.irqPending = (last.prevLine && !last.lineNow))
      ∧ (2 ≤ s.cfg.tPres → (tickList lows s).device.irqPending = false)
      ∧ (s.cfg.tPres = 1 → (tickList lows s).device.irqPending = !(lows.getD (s.cfg.tIdle - 1) false)))

/-- A line that never rises after a RESET keeps the block in P_RELWAIT for ever, driving nothing, with no session
register but TO changed (70_reset_and_hazards R277, 93_implementation_defined U10). -/
def Obligations.StuckLowLineKeepsTheReleaseWait : Prop :=
  ∀ (s : State) (n : Nat), s.phase = .relWait → s.device.lineNow = false → s.device.driveLow = false →
    let t := tickList (List.replicate n true) s
    t.phase = .relWait ∧ t.device.lineNow = false ∧ t.device.driveLow = false
    ∧ t.session = { s.session with timerOverflow := t.session.timerOverflow } ∧ t.events = s.events

/-- The debug strobe has no protocol effect (40_pulse_classifier R132): two blocks that differ in DEBUG_STROBE and in
the strobe output stay equal in everything else, tick by tick. -/
def Obligations.DebugStrobeHasNoProtocolEffect : Prop :=
  ∀ (s : State) (option output : Bool) (lows : List Bool),
    let s' := { s with
      cfg := { s.cfg with debugStrobe := option },
      device := { s.device with debugStrobe := output } }
    let t := tickList lows s
    let t' := tickList lows s'
    { t' with cfg := t.cfg, device := { t'.device with debugStrobe := t.device.debugStrobe } } = t

/-- The strobe output (40_pulse_classifier R132): after a tick it is 1 exactly when DEBUG_STROBE is set and the fast
path's `drive_low()` was executed in that tick, that is, when the tick was that of the first action, armed and not
filtered; the driver is then low in the same next tick. The tick of the first action is the entry tick with LAT = 1 and
else the one that ends the latency (10_state R37, 40_pulse_classifier R112, R113), and the filter is R121's; the values
of the latency counter by which the statement names that tick are the model's choice (assumption 5, DESIGN CHOICE). -/
def Obligations.DebugStrobeMarksTheFastPathAssertion : Prop :=
  ∀ (s : State) (low : Bool),
    ((tick low s).device.debugStrobe = true ↔
      s.cfg.debugStrobe = true ∧ s.session.read0Armed = true
      ∧ ¬ (s.cfg.skip = true ∧ s.device.lineNow = true)
      ∧ ((s.phase = .wait ∧ s.device.irqPending = true ∧ s.device.irqEnable = true ∧ s.cfg.lat ≤ 1)
        ∨ (s.phase = .lat ∧ s.cfg.lat ≤ s.latCount + 2)))
    ∧ (configLegal s.cfg = true → (tick low s).device.debugStrobe = true → (tick low s).device.driveLow = true)

/-- Interrupt entry (60_exceptions R228, R230, 40_pulse_classifier R112): a tick in P_WAIT with the pending flag and the
enable set executes `clear_pending()`, empties the event list and goes to P_LAT, or with LAT = 1 runs the first action
at once; the flag is set after it only by an edge of that very tick (R229). A tick in P_LAT runs the first action when
LAT - 1 ticks have passed, and else counts one more (the counter's values are assumption 5). It is the same whether the
flag was set by a fresh edge or during the previous pass (60_exceptions R231, 70_reset_and_hazards R272). The event list
is the model's tap (assumption 25). -/
def Obligations.InterruptEntryClearsThePendingFlag : Prop :=
  ∀ (s : State) (low : Bool), configLegal s.cfg = true →
    (s.phase = .wait → s.device.irqPending = true → s.device.irqEnable = true →
      let entered := { s with
        device := { s.device with clearNow := true, debugStrobe := false }, phase := .lat, latCount := 0, events := [] }
      (2 ≤ s.cfg.lat → tick low s = endOfTick low entered)
      ∧ (s.cfg.lat = 1 → tick low s = endOfTick low (firstAction entered))
      ∧ (tick low s).device.irqPending = (s.device.prevLine && !s.device.lineNow))
    ∧ (s.phase = .lat →
      let counted := { s with
        device := { s.device with debugStrobe := false }, latCount := s.latCount + 1 }
      (s.latCount + 2 < s.cfg.lat → tick low s = endOfTick low counted)
      ∧ (s.cfg.lat ≤ s.latCount + 2 → tick low s = endOfTick low (firstAction counted)))
end

