-- ==== Sys2Proof/Laws/State.lean ====
section
/-! SUPPORT. One lemma per field per named update, each true by rfl, so that no later proof unfolds a record update. -/

namespace Sys2Proof.Machine

/-! ### Device primitives -/

@[simp] theorem Device.setInputMode_driveLow (d : Device) : d.setInputMode.driveLow = false := rfl
@[simp] theorem Device.setInputMode_tau (d : Device) : d.setInputMode.tau = d.tau := rfl
@[simp] theorem Device.setInputMode_timerRunning (d : Device) : d.setInputMode.timerRunning = d.timerRunning := rfl
@[simp] theorem Device.setInputMode_irqPending (d : Device) : d.setInputMode.irqPending = d.irqPending := rfl
@[simp] theorem Device.setInputMode_irqEnable (d : Device) : d.setInputMode.irqEnable = d.irqEnable := rfl
@[simp] theorem Device.setInputMode_prevLine (d : Device) : d.setInputMode.prevLine = d.prevLine := rfl
@[simp] theorem Device.setInputMode_lineNow (d : Device) : d.setInputMode.lineNow = d.lineNow := rfl
@[simp] theorem Device.setInputMode_clearNow (d : Device) : d.setInputMode.clearNow = d.clearNow := rfl
@[simp] theorem Device.setInputMode_debugStrobe (d : Device) : d.setInputMode.debugStrobe = d.debugStrobe := rfl

@[simp] theorem Device.setDrivenLow_driveLow (d : Device) : d.setDrivenLow.driveLow = true := rfl
@[simp] theorem Device.setDrivenLow_tau (d : Device) : d.setDrivenLow.tau = d.tau := rfl
@[simp] theorem Device.setDrivenLow_timerRunning (d : Device) : d.setDrivenLow.timerRunning = d.timerRunning := rfl
@[simp] theorem Device.setDrivenLow_irqPending (d : Device) : d.setDrivenLow.irqPending = d.irqPending := rfl
@[simp] theorem Device.setDrivenLow_irqEnable (d : Device) : d.setDrivenLow.irqEnable = d.irqEnable := rfl
@[simp] theorem Device.setDrivenLow_prevLine (d : Device) : d.setDrivenLow.prevLine = d.prevLine := rfl
@[simp] theorem Device.setDrivenLow_lineNow (d : Device) : d.setDrivenLow.lineNow = d.lineNow := rfl
@[simp] theorem Device.setDrivenLow_clearNow (d : Device) : d.setDrivenLow.clearNow = d.clearNow := rfl
@[simp] theorem Device.setDrivenLow_debugStrobe (d : Device) : d.setDrivenLow.debugStrobe = d.debugStrobe := rfl

@[simp] theorem Device.strobe_driveLow (d : Device) : d.strobe.driveLow = d.driveLow := rfl
@[simp] theorem Device.strobe_tau (d : Device) : d.strobe.tau = d.tau := rfl
@[simp] theorem Device.strobe_timerRunning (d : Device) : d.strobe.timerRunning = d.timerRunning := rfl
@[simp] theorem Device.strobe_irqPending (d : Device) : d.strobe.irqPending = d.irqPending := rfl
@[simp] theorem Device.strobe_irqEnable (d : Device) : d.strobe.irqEnable = d.irqEnable := rfl
@[simp] theorem Device.strobe_prevLine (d : Device) : d.strobe.prevLine = d.prevLine := rfl
@[simp] theorem Device.strobe_lineNow (d : Device) : d.strobe.lineNow = d.lineNow := rfl
@[simp] theorem Device.strobe_clearNow (d : Device) : d.strobe.clearNow = d.clearNow := rfl
@[simp] theorem Device.strobe_debugStrobe (d : Device) : d.strobe.debugStrobe = true := rfl

@[simp] theorem Device.timerStart_driveLow (d : Device) : d.timerStart.driveLow = d.driveLow := rfl
@[simp] theorem Device.timerStart_tau (d : Device) : d.timerStart.tau = d.tau := rfl
@[simp] theorem Device.timerStart_timerRunning (d : Device) : d.timerStart.timerRunning = true := rfl
@[simp] theorem Device.timerStart_irqPending (d : Device) : d.timerStart.irqPending = d.irqPending := rfl
@[simp] theorem Device.timerStart_irqEnable (d : Device) : d.timerStart.irqEnable = d.irqEnable := rfl
@[simp] theorem Device.timerStart_prevLine (d : Device) : d.timerStart.prevLine = d.prevLine := rfl
@[simp] theorem Device.timerStart_lineNow (d : Device) : d.timerStart.lineNow = d.lineNow := rfl
@[simp] theorem Device.timerStart_clearNow (d : Device) : d.timerStart.clearNow = d.clearNow := rfl
@[simp] theorem Device.timerStart_debugStrobe (d : Device) : d.timerStart.debugStrobe = d.debugStrobe := rfl

@[simp] theorem Device.timerStop_driveLow (d : Device) : d.timerStop.driveLow = d.driveLow := rfl
@[simp] theorem Device.timerStop_tau (d : Device) : d.timerStop.tau = d.tau := rfl
@[simp] theorem Device.timerStop_timerRunning (d : Device) : d.timerStop.timerRunning = false := rfl
@[simp] theorem Device.timerStop_irqPending (d : Device) : d.timerStop.irqPending = d.irqPending := rfl
@[simp] theorem Device.timerStop_irqEnable (d : Device) : d.timerStop.irqEnable = d.irqEnable := rfl
@[simp] theorem Device.timerStop_prevLine (d : Device) : d.timerStop.prevLine = d.prevLine := rfl
@[simp] theorem Device.timerStop_lineNow (d : Device) : d.timerStop.lineNow = d.lineNow := rfl
@[simp] theorem Device.timerStop_clearNow (d : Device) : d.timerStop.clearNow = d.clearNow := rfl
@[simp] theorem Device.timerStop_debugStrobe (d : Device) : d.timerStop.debugStrobe = d.debugStrobe := rfl

@[simp] theorem Device.timerReset_driveLow (d : Device) : d.timerReset.driveLow = d.driveLow := rfl
@[simp] theorem Device.timerReset_tau (d : Device) : d.timerReset.tau = 0 := rfl
@[simp] theorem Device.timerReset_timerRunning (d : Device) : d.timerReset.timerRunning = d.timerRunning := rfl
@[simp] theorem Device.timerReset_irqPending (d : Device) : d.timerReset.irqPending = d.irqPending := rfl
@[simp] theorem Device.timerReset_irqEnable (d : Device) : d.timerReset.irqEnable = d.irqEnable := rfl
@[simp] theorem Device.timerReset_prevLine (d : Device) : d.timerReset.prevLine = d.prevLine := rfl
@[simp] theorem Device.timerReset_lineNow (d : Device) : d.timerReset.lineNow = d.lineNow := rfl
@[simp] theorem Device.timerReset_clearNow (d : Device) : d.timerReset.clearNow = d.clearNow := rfl
@[simp] theorem Device.timerReset_debugStrobe (d : Device) : d.timerReset.debugStrobe = d.debugStrobe := rfl

@[simp] theorem Device.clearPending_driveLow (d : Device) : d.clearPending.driveLow = d.driveLow := rfl
@[simp] theorem Device.clearPending_tau (d : Device) : d.clearPending.tau = d.tau := rfl
@[simp] theorem Device.clearPending_timerRunning (d : Device) : d.clearPending.timerRunning = d.timerRunning := rfl
@[simp] theorem Device.clearPending_irqPending (d : Device) : d.clearPending.irqPending = d.irqPending := rfl
@[simp] theorem Device.clearPending_irqEnable (d : Device) : d.clearPending.irqEnable = d.irqEnable := rfl
@[simp] theorem Device.clearPending_prevLine (d : Device) : d.clearPending.prevLine = d.prevLine := rfl
@[simp] theorem Device.clearPending_lineNow (d : Device) : d.clearPending.lineNow = d.lineNow := rfl
@[simp] theorem Device.clearPending_clearNow (d : Device) : d.clearPending.clearNow = true := rfl
@[simp] theorem Device.clearPending_debugStrobe (d : Device) : d.clearPending.debugStrobe = d.debugStrobe := rfl

@[simp] theorem Device.enableInterrupts_driveLow (d : Device) : d.enableInterrupts.driveLow = d.driveLow := rfl
@[simp] theorem Device.enableInterrupts_tau (d : Device) : d.enableInterrupts.tau = d.tau := rfl
@[simp] theorem Device.enableInterrupts_timerRunning (d : Device) : d.enableInterrupts.timerRunning = d.timerRunning := rfl
@[simp] theorem Device.enableInterrupts_irqPending (d : Device) : d.enableInterrupts.irqPending = d.irqPending := rfl
@[simp] theorem Device.enableInterrupts_irqEnable (d : Device) : d.enableInterrupts.irqEnable = true := rfl
@[simp] theorem Device.enableInterrupts_prevLine (d : Device) : d.enableInterrupts.prevLine = d.prevLine := rfl
@[simp] theorem Device.enableInterrupts_lineNow (d : Device) : d.enableInterrupts.lineNow = d.lineNow := rfl
@[simp] theorem Device.enableInterrupts_clearNow (d : Device) : d.enableInterrupts.clearNow = d.clearNow := rfl
@[simp] theorem Device.enableInterrupts_debugStrobe (d : Device) : d.enableInterrupts.debugStrobe = d.debugStrobe := rfl

/-! ### State updates -/

@[simp] theorem onDevice_cfg (f : Device → Device) (s : State) : (onDevice f s).cfg = s.cfg := rfl
@[simp] theorem onDevice_mem (f : Device → Device) (s : State) : (onDevice f s).mem = s.mem := rfl
@[simp] theorem onDevice_session (f : Device → Device) (s : State) : (onDevice f s).session = s.session := rfl
@[simp] theorem onDevice_device (f : Device → Device) (s : State) : (onDevice f s).device = f s.device := rfl
@[simp] theorem onDevice_phase (f : Device → Device) (s : State) : (onDevice f s).phase = s.phase := rfl
@[simp] theorem onDevice_latCount (f : Device → Device) (s : State) : (onDevice f s).latCount = s.latCount := rfl
@[simp] theorem onDevice_events (f : Device → Device) (s : State) : (onDevice f s).events = s.events := rfl
@[simp] theorem onDevice_lowTicks (f : Device → Device) (s : State) : (onDevice f s).lowTicks = s.lowTicks := rfl
@[simp] theorem onDevice_retBit (f : Device → Device) (s : State) : (onDevice f s).retBit = s.retBit := rfl
@[simp] theorem onDevice_retTicks (f : Device → Device) (s : State) : (onDevice f s).retTicks = s.retTicks := rfl
@[simp] theorem onDevice_input (f : Device → Device) (s : State) : (onDevice f s).input = s.input := rfl

@[simp] theorem onSession_cfg (f : Session → Session) (s : State) : (onSession f s).cfg = s.cfg := rfl
@[simp] theorem onSession_mem (f : Session → Session) (s : State) : (onSession f s).mem = s.mem := rfl
@[simp] theorem onSession_session (f : Session → Session) (s : State) : (onSession f s).session = f s.session := rfl
@[simp] theorem onSession_device (f : Session → Session) (s : State) : (onSession f s).device = s.device := rfl
@[simp] theorem onSession_phase (f : Session → Session) (s : State) : (onSession f s).phase = s.phase := rfl
@[simp] theorem onSession_latCount (f : Session → Session) (s : State) : (onSession f s).latCount = s.latCount := rfl
@[simp] theorem onSession_events (f : Session → Session) (s : State) : (onSession f s).events = s.events := rfl
@[simp] theorem onSession_lowTicks (f : Session → Session) (s : State) : (onSession f s).lowTicks = s.lowTicks := rfl
@[simp] theorem onSession_retBit (f : Session → Session) (s : State) : (onSession f s).retBit = s.retBit := rfl
@[simp] theorem onSession_retTicks (f : Session → Session) (s : State) : (onSession f s).retTicks = s.retTicks := rfl
@[simp] theorem onSession_input (f : Session → Session) (s : State) : (onSession f s).input = s.input := rfl

@[simp] theorem emit_cfg (e : BusEvent) (s : State) : (emit e s).cfg = s.cfg := rfl
@[simp] theorem emit_mem (e : BusEvent) (s : State) : (emit e s).mem = s.mem := rfl
@[simp] theorem emit_session (e : BusEvent) (s : State) : (emit e s).session = s.session := rfl
@[simp] theorem emit_device (e : BusEvent) (s : State) : (emit e s).device = s.device := rfl
@[simp] theorem emit_phase (e : BusEvent) (s : State) : (emit e s).phase = s.phase := rfl
@[simp] theorem emit_latCount (e : BusEvent) (s : State) : (emit e s).latCount = s.latCount := rfl
@[simp] theorem emit_events (e : BusEvent) (s : State) : (emit e s).events = s.events ++ [e] := rfl
@[simp] theorem emit_lowTicks (e : BusEvent) (s : State) : (emit e s).lowTicks = s.lowTicks := rfl
@[simp] theorem emit_retBit (e : BusEvent) (s : State) : (emit e s).retBit = s.retBit := rfl
@[simp] theorem emit_retTicks (e : BusEvent) (s : State) : (emit e s).retTicks = s.retTicks := rfl
@[simp] theorem emit_input (e : BusEvent) (s : State) : (emit e s).input = s.input := rfl

@[simp] theorem waitIn_cfg (p : Phase) (s : State) : (waitIn p s).cfg = s.cfg := rfl
@[simp] theorem waitIn_mem (p : Phase) (s : State) : (waitIn p s).mem = s.mem := rfl
@[simp] theorem waitIn_session (p : Phase) (s : State) : (waitIn p s).session = s.session := rfl
@[simp] theorem waitIn_device (p : Phase) (s : State) : (waitIn p s).device = s.device := rfl
@[simp] theorem waitIn_phase (p : Phase) (s : State) : (waitIn p s).phase = p := rfl
@[simp] theorem waitIn_latCount (p : Phase) (s : State) : (waitIn p s).latCount = s.latCount := rfl
@[simp] theorem waitIn_events (p : Phase) (s : State) : (waitIn p s).events = s.events := rfl
@[simp] theorem waitIn_lowTicks (p : Phase) (s : State) : (waitIn p s).lowTicks = s.lowTicks := rfl
@[simp] theorem waitIn_retBit (p : Phase) (s : State) : (waitIn p s).retBit = s.retBit := rfl
@[simp] theorem waitIn_retTicks (p : Phase) (s : State) : (waitIn p s).retTicks = s.retTicks := rfl
@[simp] theorem waitIn_input (p : Phase) (s : State) : (waitIn p s).input = s.input := rfl

@[simp] theorem takeInterrupt_cfg (s : State) : (takeInterrupt s).cfg = s.cfg := rfl
@[simp] theorem takeInterrupt_mem (s : State) : (takeInterrupt s).mem = s.mem := rfl
@[simp] theorem takeInterrupt_session (s : State) : (takeInterrupt s).session = s.session := rfl
@[simp] theorem takeInterrupt_device (s : State) : (takeInterrupt s).device = s.device.clearPending := rfl
@[simp] theorem takeInterrupt_phase (s : State) : (takeInterrupt s).phase = .lat := rfl
@[simp] theorem takeInterrupt_latCount (s : State) : (takeInterrupt s).latCount = 0 := rfl
@[simp] theorem takeInterrupt_events (s : State) : (takeInterrupt s).events = [] := rfl
@[simp] theorem takeInterrupt_lowTicks (s : State) : (takeInterrupt s).lowTicks = s.lowTicks := rfl
@[simp] theorem takeInterrupt_retBit (s : State) : (takeInterrupt s).retBit = s.retBit := rfl
@[simp] theorem takeInterrupt_retTicks (s : State) : (takeInterrupt s).retTicks = s.retTicks := rfl
@[simp] theorem takeInterrupt_input (s : State) : (takeInterrupt s).input = s.input := rfl

@[simp] theorem returnFromInterrupt_cfg (s : State) : (returnFromInterrupt s).cfg = s.cfg := rfl
@[simp] theorem returnFromInterrupt_mem (s : State) : (returnFromInterrupt s).mem = s.mem := rfl
@[simp] theorem returnFromInterrupt_session (s : State) : (returnFromInterrupt s).session = s.session := rfl
@[simp] theorem returnFromInterrupt_device (s : State) : (returnFromInterrupt s).device = s.device.timerStop := rfl
@[simp] theorem returnFromInterrupt_phase (s : State) : (returnFromInterrupt s).phase = .wait := rfl
@[simp] theorem returnFromInterrupt_latCount (s : State) : (returnFromInterrupt s).latCount = s.latCount := rfl
@[simp] theorem returnFromInterrupt_events (s : State) : (returnFromInterrupt s).events = s.events := rfl
@[simp] theorem returnFromInterrupt_lowTicks (s : State) : (returnFromInterrupt s).lowTicks = s.lowTicks := rfl
@[simp] theorem returnFromInterrupt_retBit (s : State) : (returnFromInterrupt s).retBit = s.retBit := rfl
@[simp] theorem returnFromInterrupt_retTicks (s : State) : (returnFromInterrupt s).retTicks = s.retTicks := rfl
@[simp] theorem returnFromInterrupt_input (s : State) : (returnFromInterrupt s).input = s.input := rfl

@[simp] theorem engineReset_cfg (s : State) : (engineReset s).cfg = s.cfg := rfl
@[simp] theorem engineReset_mem (s : State) : (engineReset s).mem = s.mem := rfl
@[simp] theorem engineReset_session (s : State) : (engineReset s).session = s.session.onReset := rfl
@[simp] theorem engineReset_device (s : State) : (engineReset s).device = s.device := rfl
@[simp] theorem engineReset_phase (s : State) : (engineReset s).phase = s.phase := rfl
@[simp] theorem engineReset_latCount (s : State) : (engineReset s).latCount = s.latCount := rfl
@[simp] theorem engineReset_events (s : State) : (engineReset s).events = s.events := rfl
@[simp] theorem engineReset_lowTicks (s : State) : (engineReset s).lowTicks = s.lowTicks := rfl
@[simp] theorem engineReset_retBit (s : State) : (engineReset s).retBit = s.retBit := rfl
@[simp] theorem engineReset_retTicks (s : State) : (engineReset s).retTicks = s.retTicks := rfl
@[simp] theorem engineReset_input (s : State) : (engineReset s).input = s.input := rfl

@[simp] theorem recordArmed_cfg (s : State) : (recordArmed s).cfg = s.cfg := rfl
@[simp] theorem recordArmed_mem (s : State) : (recordArmed s).mem = s.mem := rfl
@[simp] theorem recordArmed_session (s : State) : (recordArmed s).session = { s.session with read0Armed := armedNext s.session } := rfl
@[simp] theorem recordArmed_device (s : State) : (recordArmed s).device = s.device := rfl
@[simp] theorem recordArmed_phase (s : State) : (recordArmed s).phase = s.phase := rfl
@[simp] theorem recordArmed_latCount (s : State) : (recordArmed s).latCount = s.latCount := rfl
@[simp] theorem recordArmed_events (s : State) : (recordArmed s).events = s.events := rfl
@[simp] theorem recordArmed_lowTicks (s : State) : (recordArmed s).lowTicks = s.lowTicks := rfl
@[simp] theorem recordArmed_retBit (s : State) : (recordArmed s).retBit = s.retBit := rfl
@[simp] theorem recordArmed_retTicks (s : State) : (recordArmed s).retTicks = s.retTicks := rfl
@[simp] theorem recordArmed_input (s : State) : (recordArmed s).input = s.input := rfl

@[simp] theorem exitHandler_cfg (s : State) : (exitHandler s).cfg = s.cfg := rfl
@[simp] theorem exitHandler_mem (s : State) : (exitHandler s).mem = s.mem := rfl
@[simp] theorem exitHandler_session (s : State) : (exitHandler s).session = { s.session with read0Armed := armedNext s.session } := rfl
@[simp] theorem exitHandler_device (s : State) : (exitHandler s).device = s.device.timerStop := rfl
@[simp] theorem exitHandler_phase (s : State) : (exitHandler s).phase = .wait := rfl
@[simp] theorem exitHandler_latCount (s : State) : (exitHandler s).latCount = s.latCount := rfl
@[simp] theorem exitHandler_events (s : State) : (exitHandler s).events = s.events := rfl
@[simp] theorem exitHandler_lowTicks (s : State) : (exitHandler s).lowTicks = s.lowTicks := rfl
@[simp] theorem exitHandler_retBit (s : State) : (exitHandler s).retBit = s.retBit := rfl
@[simp] theorem exitHandler_retTicks (s : State) : (exitHandler s).retTicks = s.retTicks := rfl
@[simp] theorem exitHandler_input (s : State) : (exitHandler s).input = s.input := rfl

@[simp] theorem exitGlitch_cfg (s : State) : (exitGlitch s).cfg = s.cfg := rfl
@[simp] theorem exitGlitch_mem (s : State) : (exitGlitch s).mem = s.mem := rfl
@[simp] theorem exitGlitch_session (s : State) : (exitGlitch s).session = s.session := rfl
@[simp] theorem exitGlitch_device (s : State) : (exitGlitch s).device = s.device.timerStop := rfl
@[simp] theorem exitGlitch_phase (s : State) : (exitGlitch s).phase = .wait := rfl
@[simp] theorem exitGlitch_latCount (s : State) : (exitGlitch s).latCount = s.latCount := rfl
@[simp] theorem exitGlitch_events (s : State) : (exitGlitch s).events = s.events ++ [.glitch] := rfl
@[simp] theorem exitGlitch_lowTicks (s : State) : (exitGlitch s).lowTicks = s.lowTicks := rfl
@[simp] theorem exitGlitch_retBit (s : State) : (exitGlitch s).retBit = s.retBit := rfl
@[simp] theorem exitGlitch_retTicks (s : State) : (exitGlitch s).retTicks = s.retTicks := rfl
@[simp] theorem exitGlitch_input (s : State) : (exitGlitch s).input = s.input := rfl

@[simp] theorem beginPass_cfg (s : State) : (beginPass s).cfg = s.cfg := rfl
@[simp] theorem beginPass_mem (s : State) : (beginPass s).mem = s.mem := rfl
@[simp] theorem beginPass_session (s : State) : (beginPass s).session = s.session := rfl
@[simp] theorem beginPass_device (s : State) : (beginPass s).device = { s.device with irqPending := false, clearNow := false, debugStrobe := false } := rfl
@[simp] theorem beginPass_phase (s : State) : (beginPass s).phase = s.phase := rfl
@[simp] theorem beginPass_latCount (s : State) : (beginPass s).latCount = 0 := rfl
@[simp] theorem beginPass_events (s : State) : (beginPass s).events = [] := rfl
@[simp] theorem beginPass_lowTicks (s : State) : (beginPass s).lowTicks = s.lowTicks := rfl
@[simp] theorem beginPass_retBit (s : State) : (beginPass s).retBit = s.retBit := rfl
@[simp] theorem beginPass_retTicks (s : State) : (beginPass s).retTicks = s.retTicks := rfl
@[simp] theorem beginPass_input (s : State) : (beginPass s).input = s.input := rfl

@[simp] theorem noteOverflow_cfg (s : State) : (noteOverflow s).cfg = s.cfg := rfl
@[simp] theorem noteOverflow_mem (s : State) : (noteOverflow s).mem = s.mem := rfl
@[simp] theorem noteOverflow_session (s : State) : (noteOverflow s).session = { s.session with timerOverflow := s.session.timerOverflow || timerWraps s.cfg s.device } := rfl
@[simp] theorem noteOverflow_device (s : State) : (noteOverflow s).device = s.device := rfl
@[simp] theorem noteOverflow_phase (s : State) : (noteOverflow s).phase = s.phase := rfl
@[simp] theorem noteOverflow_latCount (s : State) : (noteOverflow s).latCount = s.latCount := rfl
@[simp] theorem noteOverflow_events (s : State) : (noteOverflow s).events = s.events := rfl
@[simp] theorem noteOverflow_lowTicks (s : State) : (noteOverflow s).lowTicks = s.lowTicks := rfl
@[simp] theorem noteOverflow_retBit (s : State) : (noteOverflow s).retBit = s.retBit := rfl
@[simp] theorem noteOverflow_retTicks (s : State) : (noteOverflow s).retTicks = s.retTicks := rfl
@[simp] theorem noteOverflow_input (s : State) : (noteOverflow s).input = s.input := rfl

/-! ### `onReset()` -/

@[simp] theorem Session.onReset_expectingRead (x : Session) : x.onReset.expectingRead = false := rfl
@[simp] theorem Session.onReset_deferredSwitchToWrite (x : Session) : x.onReset.deferredSwitchToWrite = false := rfl
@[simp] theorem Session.onReset_possibleReset (x : Session) : x.onReset.possibleReset = false := rfl
@[simp] theorem Session.onReset_timerOverflow (x : Session) : x.onReset.timerOverflow = x.timerOverflow := rfl
@[simp] theorem Session.onReset_invertNextReadBit (x : Session) : x.onReset.invertNextReadBit = false := rfl
@[simp] theorem Session.onReset_pendingBitValue (x : Session) : x.onReset.pendingBitValue = x.pendingBitValue := rfl
@[simp] theorem Session.onReset_commandState (x : Session) : x.onReset.commandState = .resetReceived := rfl
@[simp] theorem Session.onReset_byteIndex (x : Session) : x.onReset.byteIndex = 0 := rfl
@[simp] theorem Session.onReset_bitMask (x : Session) : x.onReset.bitMask = 0x01#8 := rfl
@[simp] theorem Session.onReset_accumulatedCommand (x : Session) : x.onReset.accumulatedCommand = 0x00#8 := rfl
@[simp] theorem Session.onReset_read0Armed (x : Session) : x.onReset.read0Armed = x.read0Armed := rfl

end Sys2Proof.Machine
end

