-- ==== Sys2Proof/Laws/Engine.lean ====
section
/-! SUPPORT. What each procedure of the protocol engine can do, said once: the registers it leaves, its cases, and that
it keeps the mask one-hot. -/

namespace Sys2Proof.Machine

open Sys2Proof.Safety

/-! ### The registers no engine procedure writes, but for `onReset()` -/

/-- PR, TO and the fast-path flag: the handler's own. -/
structure SameHandlerFlags (x y : Session) : Prop where
  possibleReset : y.possibleReset = x.possibleReset
  timerOverflow : y.timerOverflow = x.timerOverflow
  read0Armed : y.read0Armed = x.read0Armed

theorem SameHandlerFlags.rfl' (x : Session) : SameHandlerFlags x x := ⟨rfl, rfl, rfl⟩

/-- The flags a record update before the procedure did not touch. -/
theorem SameHandlerFlags.ofUpdate {x y z : Session} (h : SameHandlerFlags y z)
    (hp : y.possibleReset = x.possibleReset) (ht : y.timerOverflow = x.timerOverflow)
    (ha : y.read0Armed = x.read0Armed) : SameHandlerFlags x z :=
  ⟨h.1.trans hp, h.2.trans ht, h.3.trans ha⟩

theorem SameHandlerFlags.comp {x y z : Session} (h : SameHandlerFlags x y) (h' : SameHandlerFlags y z) :
    SameHandlerFlags x z :=
  ⟨h'.1.trans h.1, h'.2.trans h.2, h'.3.trans h.3⟩

/-! ### `advanceCursor()` -/

/-- The three cases of R176. -/
theorem advanceCursor_cases (x : Session) :
    (x.bitMask ≠ 0x80#8 ∧ x.advanceCursor = { x with bitMask := x.bitMask <<< 1 })
    ∨ (x.bitMask = 0x80#8 ∧ x.byteIndex ≠ 7
        ∧ x.advanceCursor = { x with bitMask := 0x01#8, byteIndex := x.byteIndex + 1 })
    ∨ (x.bitMask = 0x80#8 ∧ x.byteIndex = 7
        ∧ x.advanceCursor = { x with bitMask := 0x01#8, byteIndex := 0, commandState := .idle }) := by
  unfold Session.advanceCursor
  by_cases hm : x.bitMask = 0x80#8
  · by_cases hi : x.byteIndex = 7
    · exact .inr (.inr ⟨hm, hi, by simp [hm, hi]⟩)
    · exact .inr (.inl ⟨hm, hi, by simp [hm, hi]⟩)
  · exact .inl ⟨hm, by simp [hm]⟩

@[simp] theorem advanceCursor_expectingRead (x : Session) : x.advanceCursor.expectingRead = x.expectingRead := by
  rcases advanceCursor_cases x with ⟨_, h⟩ | ⟨_, _, h⟩ | ⟨_, _, h⟩ <;> rw [h]

@[simp] theorem advanceCursor_deferredSwitchToWrite (x : Session) :
    x.advanceCursor.deferredSwitchToWrite = x.deferredSwitchToWrite := by
  rcases advanceCursor_cases x with ⟨_, h⟩ | ⟨_, _, h⟩ | ⟨_, _, h⟩ <;> rw [h]

@[simp] theorem advanceCursor_invertNextReadBit (x : Session) :
    x.advanceCursor.invertNextReadBit = x.invertNextReadBit := by
  rcases advanceCursor_cases x with ⟨_, h⟩ | ⟨_, _, h⟩ | ⟨_, _, h⟩ <;> rw [h]

@[simp] theorem advanceCursor_pendingBitValue (x : Session) :
    x.advanceCursor.pendingBitValue = x.pendingBitValue := by
  rcases advanceCursor_cases x with ⟨_, h⟩ | ⟨_, _, h⟩ | ⟨_, _, h⟩ <;> rw [h]

@[simp] theorem advanceCursor_accumulatedCommand (x : Session) :
    x.advanceCursor.accumulatedCommand = x.accumulatedCommand := by
  rcases advanceCursor_cases x with ⟨_, h⟩ | ⟨_, _, h⟩ | ⟨_, _, h⟩ <;> rw [h]

theorem advanceCursor_flags (x : Session) : SameHandlerFlags x x.advanceCursor := by
  rcases advanceCursor_cases x with ⟨_, h⟩ | ⟨_, _, h⟩ | ⟨_, _, h⟩ <;> rw [h] <;> exact ⟨rfl, rfl, rfl⟩

/-- CommandState after an advance: as before, or Idle (R176). -/
theorem advanceCursor_commandState (x : Session) :
    x.advanceCursor.commandState = x.commandState ∨ x.advanceCursor.commandState = .idle := by
  rcases advanceCursor_cases x with ⟨_, h⟩ | ⟨_, _, h⟩ | ⟨_, _, h⟩ <;> rw [h] <;> simp

/-! ### One-hot masks -/

theorem oneHot_one : OneHot 0x01#8 := ⟨0, rfl⟩

/-- Doubling a one-hot mask other than 0x80 keeps it one-hot (R175 c). -/
theorem oneHot_double {m : Byte} (h : OneHot m) (hm : m ≠ 0x80#8) : OneHot (m <<< 1) := by
  obtain ⟨k, rfl⟩ := h
  revert hm
  revert k
  decide

theorem advanceCursor_oneHot {x : Session} (h : OneHot x.bitMask) : OneHot x.advanceCursor.bitMask := by
  rcases advanceCursor_cases x with ⟨hm, e⟩ | ⟨_, _, e⟩ | ⟨_, _, e⟩ <;> rw [e]
  · exact oneHot_double h hm
  · exact oneHot_one
  · exact oneHot_one

/-! ### `onReadBitRequested()` -/

/-- By CommandState (R169 to R172). -/
theorem onReadBitRequested_cases (m : Memory) (x : Session) :
    (x.commandState = .reportIdentity ∧ x.onReadBitRequested m = (idbit m x, x.advanceCursor))
    ∨ (x.commandState = .discover ∧ x.invertNextReadBit = false
        ∧ x.onReadBitRequested m = (idbit m x, { x with invertNextReadBit := true }))
    ∨ (x.commandState = .discover ∧ x.invertNextReadBit = true
        ∧ x.onReadBitRequested m
          = (!(idbit m x), { x with invertNextReadBit := false, deferredSwitchToWrite := true }))
    ∨ ((x.commandState = .idle ∨ x.commandState = .resetReceived) ∧ x.onReadBitRequested m = (true, x)) := by
  unfold Session.onReadBitRequested
  cases hc : x.commandState with
  | idle => exact .inr (.inr (.inr ⟨.inl rfl, rfl⟩))
  | resetReceived => exact .inr (.inr (.inr ⟨.inr rfl, rfl⟩))
  | reportIdentity => exact .inl ⟨rfl, rfl⟩
  | discover =>
    unfold Session.discoverBit
    cases hi : x.invertNextReadBit with
    | false => exact .inr (.inl ⟨rfl, rfl, congrArg (Prod.mk _) (by rw [← hc])⟩)
    | true => exact .inr (.inr (.inl ⟨rfl, rfl, congrArg (Prod.mk _) (by rw [← hc]; rfl)⟩))

/-- What `PBV <- onReadBitRequested()` can do, by CommandState. -/
theorem prepareReadBit_cases (m : Memory) (x : Session) :
    (x.commandState = .reportIdentity
        ∧ x.prepareReadBit m = { x.advanceCursor with pendingBitValue := idbit m x })
    ∨ (x.commandState = .discover ∧ x.invertNextReadBit = false
        ∧ x.prepareReadBit m = { x with invertNextReadBit := true, pendingBitValue := idbit m x })
    ∨ (x.commandState = .discover ∧ x.invertNextReadBit = true
        ∧ x.prepareReadBit m = { x with
            invertNextReadBit := false, deferredSwitchToWrite := true, pendingBitValue := !(idbit m x) })
    ∨ ((x.commandState = .idle ∨ x.commandState = .resetReceived)
        ∧ x.prepareReadBit m = { x with pendingBitValue := true }) := by
  rcases onReadBitRequested_cases m x with ⟨h, e⟩ | ⟨h, hi, e⟩ | ⟨h, hi, e⟩ | ⟨h, e⟩
  · exact .inl ⟨h, by simp [Session.prepareReadBit, e]⟩
  · exact .inr (.inl ⟨h, hi, by simp [Session.prepareReadBit, e]⟩)
  · exact .inr (.inr (.inl ⟨h, hi, by simp [Session.prepareReadBit, e]⟩))
  · exact .inr (.inr (.inr ⟨h, by simp [Session.prepareReadBit, e]⟩))

theorem prepareReadBit_flags (m : Memory) (x : Session) : SameHandlerFlags x (x.prepareReadBit m) := by
  rcases prepareReadBit_cases m x with ⟨_, e⟩ | ⟨_, _, e⟩ | ⟨_, _, e⟩ | ⟨_, e⟩ <;> rw [e]
  · exact ⟨(advanceCursor_flags x).1, (advanceCursor_flags x).2, (advanceCursor_flags x).3⟩
  · exact ⟨rfl, rfl, rfl⟩
  · exact ⟨rfl, rfl, rfl⟩
  · exact ⟨rfl, rfl, rfl⟩

@[simp] theorem prepareReadBit_expectingRead (m : Memory) (x : Session) :
    (x.prepareReadBit m).expectingRead = x.expectingRead := by
  rcases prepareReadBit_cases m x with ⟨_, e⟩ | ⟨_, _, e⟩ | ⟨_, _, e⟩ | ⟨_, e⟩ <;> simp [e]

@[simp] theorem prepareReadBit_accumulatedCommand (m : Memory) (x : Session) :
    (x.prepareReadBit m).accumulatedCommand = x.accumulatedCommand := by
  rcases prepareReadBit_cases m x with ⟨_, e⟩ | ⟨_, _, e⟩ | ⟨_, _, e⟩ | ⟨_, e⟩ <;> simp [e]

theorem prepareReadBit_oneHot {m : Memory} {x : Session} (h : OneHot x.bitMask) :
    OneHot (x.prepareReadBit m).bitMask := by
  rcases prepareReadBit_cases m x with ⟨_, e⟩ | ⟨_, _, e⟩ | ⟨_, _, e⟩ | ⟨_, e⟩ <;> rw [e]
  · exact advanceCursor_oneHot h
  · exact h
  · exact h
  · exact h

/-! ### `switchToReadMode()` and `rearm()` -/

@[simp] theorem switchToReadMode_expectingRead (m : Memory) (x : Session) :
    (x.switchToReadMode m).expectingRead = true := by
  simp [Session.switchToReadMode]

theorem switchToReadMode_flags (m : Memory) (x : Session) : SameHandlerFlags x (x.switchToReadMode m) :=
  (prepareReadBit_flags m { x with expectingRead := true, deferredSwitchToWrite := false }).ofUpdate rfl rfl rfl

theorem switchToReadMode_oneHot {m : Memory} {x : Session} (h : OneHot x.bitMask) :
    OneHot (x.switchToReadMode m).bitMask :=
  prepareReadBit_oneHot (x := { x with expectingRead := true, deferredSwitchToWrite := false }) h

/-- The two cases of R126. -/
theorem rearm_cases (m : Memory) (x : Session) :
    (x.deferredSwitchToWrite = true
        ∧ x.rearm m = { x with expectingRead := false, deferredSwitchToWrite := false })
    ∨ (x.deferredSwitchToWrite = false ∧ x.rearm m = x.prepareReadBit m) := by
  cases h : x.deferredSwitchToWrite with
  | true => exact .inl ⟨rfl, by simp [Session.rearm, h]⟩
  | false => exact .inr ⟨rfl, by simp [Session.rearm, h]⟩

theorem rearm_flags (m : Memory) (x : Session) : SameHandlerFlags x (x.rearm m) := by
  rcases rearm_cases m x with ⟨_, e⟩ | ⟨_, e⟩ <;> rw [e]
  · exact ⟨rfl, rfl, rfl⟩
  · exact prepareReadBit_flags m x

theorem rearm_oneHot {m : Memory} {x : Session} (h : OneHot x.bitMask) : OneHot (x.rearm m).bitMask := by
  rcases rearm_cases m x with ⟨_, e⟩ | ⟨_, e⟩ <;> rw [e]
  · exact h
  · exact prepareReadBit_oneHot h

/-! ### `onWriteBit()` -/

/-- The three outcomes of a command dispatch (R164 to R166). -/
theorem dispatch_cases (m : Memory) (disc : Byte) (x : Session) :
    (x.accumulatedCommand = 0x33#8 ∧ x.dispatch m disc = x.startReport m)
    ∨ (x.accumulatedCommand ≠ 0x33#8 ∧ x.accumulatedCommand = disc ∧ x.dispatch m disc = x.startDiscover m)
    ∨ (x.accumulatedCommand ≠ 0x33#8 ∧ x.accumulatedCommand ≠ disc
        ∧ x.dispatch m disc = { x with commandState := .idle }) := by
  by_cases h : x.accumulatedCommand = 0x33#8
  · have hc : commandOf disc x.accumulatedCommand = .readIdentity := if_pos h
    exact .inl ⟨h, by rw [Session.dispatch, hc]⟩
  · by_cases h' : x.accumulatedCommand = disc
    · have hc : commandOf disc x.accumulatedCommand = .discover := (if_neg h).trans (if_pos h')
      exact .inr (.inl ⟨h, h', by rw [Session.dispatch, hc]⟩)
    · have hc : commandOf disc x.accumulatedCommand = .other := (if_neg h).trans (if_neg h')
      exact .inr (.inr ⟨h, h', by rw [Session.dispatch, hc]; rfl⟩)

/-- What `onWriteBit(bit)` can do (R162, R163, R167, R168). -/
theorem onWriteBit_cases (m : Memory) (disc : Byte) (bit : Bool) (x : Session) :
    (x.commandState = .resetReceived ∧ x.onWriteBit m disc bit = x.accumulate m disc bit)
    ∨ (x.commandState = .discover ∧ bit = idbit m x
        ∧ x.onWriteBit m disc bit = x.advanceCursor.switchToReadMode m)
    ∨ (x.commandState = .discover ∧ bit ≠ idbit m x
        ∧ x.onWriteBit m disc bit = { x with commandState := .idle })
    ∨ ((x.commandState = .idle ∨ x.commandState = .reportIdentity) ∧ x.onWriteBit m disc bit = x) := by
  unfold Session.onWriteBit
  cases hc : x.commandState with
  | idle => exact .inr (.inr (.inr ⟨.inl rfl, rfl⟩))
  | reportIdentity => exact .inr (.inr (.inr ⟨.inr rfl, rfl⟩))
  | resetReceived => exact .inl ⟨rfl, rfl⟩
  | discover =>
    by_cases hb : bit = idbit m x
    · exact .inr (.inl ⟨rfl, hb, by simp [Session.discoverWrite, hb]⟩)
    · exact .inr (.inr (.inl ⟨rfl, hb, by simp [Session.discoverWrite, hb]⟩))

theorem startReport_flags (m : Memory) (x : Session) : SameHandlerFlags x (x.startReport m) :=
  (switchToReadMode_flags m { x with commandState := .reportIdentity, byteIndex := 0, bitMask := 0x01#8 }).ofUpdate
    rfl rfl rfl

theorem startDiscover_flags (m : Memory) (x : Session) : SameHandlerFlags x (x.startDiscover m) :=
  (switchToReadMode_flags m { x with
    commandState := .discover, byteIndex := 0, bitMask := 0x01#8, invertNextReadBit := false }).ofUpdate
    rfl rfl rfl

theorem startReport_oneHot (m : Memory) (x : Session) : OneHot (x.startReport m).bitMask :=
  switchToReadMode_oneHot (x := { x with commandState := .reportIdentity, byteIndex := 0, bitMask := 0x01#8 }) oneHot_one

theorem startDiscover_oneHot (m : Memory) (x : Session) : OneHot (x.startDiscover m).bitMask :=
  switchToReadMode_oneHot
    (x := { x with commandState := .discover, byteIndex := 0, bitMask := 0x01#8, invertNextReadBit := false }) oneHot_one

theorem dispatch_flags (m : Memory) (disc : Byte) (x : Session) : SameHandlerFlags x (x.dispatch m disc) := by
  rcases dispatch_cases m disc x with ⟨_, e⟩ | ⟨_, _, e⟩ | ⟨_, _, e⟩ <;> rw [e]
  · exact startReport_flags m x
  · exact startDiscover_flags m x
  · exact ⟨rfl, rfl, rfl⟩

theorem dispatch_oneHot {m : Memory} {disc : Byte} {x : Session} (h : OneHot x.bitMask) :
    OneHot (x.dispatch m disc).bitMask := by
  rcases dispatch_cases m disc x with ⟨_, e⟩ | ⟨_, _, e⟩ | ⟨_, _, e⟩ <;> rw [e]
  · exact startReport_oneHot m x
  · exact startDiscover_oneHot m x
  · exact h

theorem accumulate_flags (m : Memory) (disc : Byte) (bit : Bool) (x : Session) :
    SameHandlerFlags x (x.accumulate m disc bit) := by
  unfold Session.accumulate
  dsimp only
  split
  · exact (dispatch_flags m disc { x with
      accumulatedCommand := if bit then x.accumulatedCommand ||| x.bitMask else x.accumulatedCommand,
      bitMask := 0x01#8 }).ofUpdate rfl rfl rfl
  · exact ⟨rfl, rfl, rfl⟩

theorem accumulate_oneHot {m : Memory} {disc : Byte} {bit : Bool} {x : Session} (h : OneHot x.bitMask) :
    OneHot (x.accumulate m disc bit).bitMask := by
  unfold Session.accumulate
  dsimp only
  split
  next => exact dispatch_oneHot oneHot_one
  next hm => exact oneHot_double h hm

theorem onWriteBit_flags (m : Memory) (disc : Byte) (bit : Bool) (x : Session) :
    SameHandlerFlags x (x.onWriteBit m disc bit) := by
  rcases onWriteBit_cases m disc bit x with ⟨_, e⟩ | ⟨_, _, e⟩ | ⟨_, _, e⟩ | ⟨_, e⟩ <;> rw [e]
  · exact accumulate_flags m disc bit x
  · exact (advanceCursor_flags x).comp (switchToReadMode_flags m _)
  · exact ⟨rfl, rfl, rfl⟩
  · exact .rfl' x

theorem onWriteBit_oneHot {m : Memory} {disc : Byte} {bit : Bool} {x : Session} (h : OneHot x.bitMask) :
    OneHot (x.onWriteBit m disc bit).bitMask := by
  rcases onWriteBit_cases m disc bit x with ⟨_, e⟩ | ⟨_, _, e⟩ | ⟨_, _, e⟩ | ⟨_, e⟩ <;> rw [e]
  · exact accumulate_oneHot h
  · exact switchToReadMode_oneHot (advanceCursor_oneHot h)
  · exact h
  · exact h

end Sys2Proof.Machine
end

