-- ==== Sys2Proof/Laws/Handler.lean ====
section
/-! SUPPORT. What every statement of the handler keeps, said once (`Kept`), with one lemma per position of the handler,
and the cases of the polls. -/

namespace Sys2Proof.Machine

open Sys2Proof.Safety

/-- What no statement of the handler changes, and the relations every one keeps: a `clear_pending()` of the tick is not taken
back, the Timer is left alone or set to zero, the mask stays one-hot. -/
structure Kept (s t : State) : Prop where
  cfg : t.cfg = s.cfg
  mem : t.mem = s.mem
  input : t.input = s.input
  lowTicks : t.lowTicks = s.lowTicks
  retBit : t.retBit = s.retBit
  retTicks : t.retTicks = s.retTicks
  irqPending : t.device.irqPending = s.device.irqPending
  irqEnable : t.device.irqEnable = s.device.irqEnable
  prevLine : t.device.prevLine = s.device.prevLine
  lineNow : t.device.lineNow = s.device.lineNow
  clearNow : s.device.clearNow = true → t.device.clearNow = true
  tau : t.device.tau = s.device.tau ∨ t.device.tau = 0
  mask : OneHot s.session.bitMask → OneHot t.session.bitMask

theorem Kept.same (s : State) : Kept s s :=
  ⟨rfl, rfl, rfl, rfl, rfl, rfl, rfl, rfl, rfl, rfl, id, .inl rfl, id⟩

theorem Kept.comp {s t u : State} (h : Kept s t) (k : Kept t u) : Kept s u where
  cfg := k.cfg.trans h.cfg
  mem := k.mem.trans h.mem
  input := k.input.trans h.input
  lowTicks := k.lowTicks.trans h.lowTicks
  retBit := k.retBit.trans h.retBit
  retTicks := k.retTicks.trans h.retTicks
  irqPending := k.irqPending.trans h.irqPending
  irqEnable := k.irqEnable.trans h.irqEnable
  prevLine := k.prevLine.trans h.prevLine
  lineNow := k.lineNow.trans h.lineNow
  clearNow := k.clearNow ∘ h.clearNow
  tau := by
    rcases k.tau with e | e
    · rw [e]; exact h.tau
    · exact .inr e
  mask := k.mask ∘ h.mask

/-! ### Single statements -/

theorem kept_onSession {f : Session → Session} (s : State)
    (h : OneHot s.session.bitMask → OneHot (f s.session).bitMask) : Kept s (onSession f s) :=
  ⟨rfl, rfl, rfl, rfl, rfl, rfl, rfl, rfl, rfl, rfl, id, .inl rfl, h⟩

theorem kept_emit (e : BusEvent) (s : State) : Kept s (emit e s) :=
  ⟨rfl, rfl, rfl, rfl, rfl, rfl, rfl, rfl, rfl, rfl, id, .inl rfl, id⟩

theorem kept_waitIn (p : Phase) (s : State) : Kept s (waitIn p s) :=
  ⟨rfl, rfl, rfl, rfl, rfl, rfl, rfl, rfl, rfl, rfl, id, .inl rfl, id⟩

theorem kept_setInputMode (s : State) : Kept s (onDevice Device.setInputMode s) :=
  ⟨rfl, rfl, rfl, rfl, rfl, rfl, rfl, rfl, rfl, rfl, id, .inl rfl, id⟩

theorem kept_setDrivenLow (s : State) : Kept s (onDevice Device.setDrivenLow s) :=
  ⟨rfl, rfl, rfl, rfl, rfl, rfl, rfl, rfl, rfl, rfl, id, .inl rfl, id⟩

theorem kept_timerReset (s : State) : Kept s (onDevice Device.timerReset s) :=
  ⟨rfl, rfl, rfl, rfl, rfl, rfl, rfl, rfl, rfl, rfl, id, .inr rfl, id⟩

theorem kept_clearPending (s : State) : Kept s (onDevice Device.clearPending s) :=
  ⟨rfl, rfl, rfl, rfl, rfl, rfl, rfl, rfl, rfl, rfl, fun _ => rfl, .inl rfl, id⟩

theorem kept_returnFromInterrupt (s : State) : Kept s (returnFromInterrupt s) :=
  ⟨rfl, rfl, rfl, rfl, rfl, rfl, rfl, rfl, rfl, rfl, id, .inl rfl, id⟩

theorem kept_takeInterrupt (s : State) : Kept s (takeInterrupt s) :=
  ⟨rfl, rfl, rfl, rfl, rfl, rfl, rfl, rfl, rfl, rfl, fun _ => rfl, .inl rfl, id⟩

theorem kept_latCount (n : Nat) (s : State) : Kept s { s with latCount := n } :=
  ⟨rfl, rfl, rfl, rfl, rfl, rfl, rfl, rfl, rfl, rfl, id, .inl rfl, id⟩

theorem kept_engineReset (s : State) : Kept s (engineReset s) := kept_onSession s fun _ => oneHot_one

theorem kept_engineWriteBit (bit : Bool) (s : State) : Kept s (engineWriteBit bit s) :=
  kept_onSession s fun h => onWriteBit_oneHot (x := { s.session with pendingBitValue := bit }) h

/-- The fast path's assertion, with its strobe (R125, R132). -/
theorem kept_strobe (option : Bool) (s : State) :
    Kept s (onDevice (fun d => if option then d.strobe else d) s) := by
  cases option <;> exact ⟨rfl, rfl, rfl, rfl, rfl, rfl, rfl, rfl, rfl, rfl, id, .inl rfl, id⟩

/-! ### Steps of a pass -/

theorem kept_readDelivered (e : BusEvent) (s : State) : Kept s (readDelivered e s) :=
  (kept_emit e s).comp (kept_onSession (emit e s) fun h => rearm_oneHot (m := s.mem) h)

theorem kept_write0Delivered (s : State) : Kept s (write0Delivered s) :=
  ((kept_onSession (f := fun x => { x with possibleReset := true }) s id).comp (kept_emit .write0 _)).comp
    (kept_engineWriteBit false _)

theorem kept_write1Delivered (s : State) : Kept s (write1Delivered s) :=
  (kept_emit .write1 s).comp (kept_engineWriteBit true _)

theorem kept_recordArmed (s : State) : Kept s (recordArmed s) := kept_onSession s id

theorem kept_exitHandler (s : State) : Kept s (exitHandler s) :=
  (kept_recordArmed s).comp (kept_returnFromInterrupt _)

theorem kept_exitGlitch (s : State) : Kept s (exitGlitch s) :=
  (kept_emit .glitch s).comp (kept_returnFromInterrupt _)

theorem kept_clearPossibleReset (s : State) : Kept s (onSession (fun x => { x with possibleReset := false }) s) :=
  kept_onSession s id

/-! ### The Reset sequence -/

/-- The two cases of the presence poll: it waits, or the sequence ends. -/
theorem presencePoll_cases (s : State) :
    (s.device.tau < s.cfg.tPres ∧ presencePoll s = waitIn .presence s)
    ∨ (s.cfg.tPres ≤ s.device.tau
      ∧ presencePoll s = exitHandler (onDevice Device.clearPending
          (onSession (fun x => { x with timerOverflow := false }) (onDevice Device.setInputMode s)))) := by
  by_cases h : s.device.tau < s.cfg.tPres
  · exact .inl ⟨h, if_pos h⟩
  · exact .inr ⟨Nat.le_of_not_lt h, if_neg h⟩

theorem kept_presencePoll (s : State) : Kept s (presencePoll s) := by
  rcases presencePoll_cases s with ⟨_, e⟩ | ⟨_, e⟩ <;> rw [e]
  · exact kept_waitIn _ s
  · exact (((kept_setInputMode s).comp (kept_onSession _ id)).comp (kept_clearPending _)).comp (kept_exitHandler _)

/-- The two cases of the idle poll: it waits, or the presence pulse begins. -/
theorem idlePoll_cases (s : State) :
    (s.device.tau < s.cfg.tIdle ∧ idlePoll s = waitIn .idleHold s)
    ∨ (s.cfg.tIdle ≤ s.device.tau
      ∧ idlePoll s = presencePoll (onDevice Device.timerReset (onDevice Device.setDrivenLow s))) := by
  by_cases h : s.device.tau < s.cfg.tIdle
  · exact .inl ⟨h, if_pos h⟩
  · exact .inr ⟨Nat.le_of_not_lt h, if_neg h⟩

theorem kept_idlePoll (s : State) : Kept s (idlePoll s) := by
  rcases idlePoll_cases s with ⟨_, e⟩ | ⟨_, e⟩ <;> rw [e]
  · exact kept_waitIn _ s
  · exact ((kept_setDrivenLow s).comp (kept_timerReset _)).comp (kept_presencePoll _)

/-- The two cases of the release poll: the line is still low, or the idle interval begins. -/
theorem releasePoll_cases (s : State) :
    (s.device.lineNow = false ∧ releasePoll s = waitIn .relWait s)
    ∨ (s.device.lineNow = true ∧ releasePoll s = idlePoll (onDevice Device.timerReset s)) := by
  cases h : s.device.lineNow with
  | false => exact .inl ⟨rfl, by simp [releasePoll, line, h]⟩
  | true => exact .inr ⟨rfl, by simp [releasePoll, line, h]⟩

theorem kept_releasePoll (s : State) : Kept s (releasePoll s) := by
  rcases releasePoll_cases s with ⟨_, e⟩ | ⟨_, e⟩ <;> rw [e]
  · exact kept_waitIn _ s
  · exact (kept_timerReset s).comp (kept_idlePoll _)

theorem kept_resetSequence (s : State) : Kept s (resetSequence s) :=
  ((kept_emit .reset s).comp (kept_engineReset _)).comp (kept_releasePoll _)

/-! ### Reset finalisation -/

/-- The three cases of the poll (R127): the overflow flag or the threshold, the line, or a wait. -/
theorem finalisationPoll_cases (released : State → State) (s : State) :
    ((s.session.timerOverflow = true ∨ s.cfg.tRstMin ≤ s.device.tau)
      ∧ finalisationPoll released s = resetSequence (onSession (fun x => { x with possibleReset := false }) s))
    ∨ (s.session.timerOverflow = false ∧ s.device.tau < s.cfg.tRstMin ∧ s.device.lineNow = true
      ∧ finalisationPoll released s = released (onSession (fun x => { x with possibleReset := false }) s))
    ∨ (s.session.timerOverflow = false ∧ s.device.tau < s.cfg.tRstMin ∧ s.device.lineNow = false
      ∧ finalisationPoll released s = waitIn .rstPoll s) := by
  by_cases h : s.session.timerOverflow = true ∨ s.cfg.tRstMin ≤ s.device.tau
  · exact .inl ⟨h, if_pos (by rw [Bool.or_eq_true, decide_eq_true_eq]; exact h)⟩
  · have hp : ¬ ((s.session.timerOverflow || decide (s.cfg.tRstMin ≤ ticks s)) = true) := by
      rw [Bool.or_eq_true, decide_eq_true_eq]; exact h
    simp only [not_or, Bool.not_eq_true, Nat.not_le] at h
    cases hl : s.device.lineNow with
    | true => exact .inr (.inl ⟨h.1, h.2, rfl, (if_neg hp).trans (if_pos hl)⟩)
    | false => exact .inr (.inr ⟨h.1, h.2, rfl, (if_neg hp).trans (if_neg (by simp [line, hl]))⟩)

theorem kept_finalisationPoll {released : State → State} (hr : ∀ s, Kept s (released s)) (s : State) :
    Kept s (finalisationPoll released s) := by
  rcases finalisationPoll_cases released s with ⟨_, e⟩ | ⟨_, _, _, e⟩ | ⟨_, _, _, e⟩ <;> rw [e]
  · exact (kept_clearPossibleReset s).comp (kept_resetSequence _)
  · exact (kept_clearPossibleReset s).comp (hr _)
  · exact kept_waitIn _ s

theorem kept_afterClassification (s : State) : Kept s (afterClassification s) := by
  unfold afterClassification
  split
  · exact kept_finalisationPoll kept_exitHandler s
  · exact kept_exitHandler s

/-! ### Classification -/

/-- The four cases of the write-mode poll (R113, R114). -/
theorem writePoll_cases (s : State) :
    (s.cfg.tW0Min ≤ s.device.tau ∧ writePoll s = afterClassification (write0Delivered s))
    ∨ (s.device.tau < s.cfg.tW0Min ∧ s.device.lineNow = true ∧ s.cfg.skip = true ∧ s.device.tau < s.cfg.tW1Min
      ∧ writePoll s = exitGlitch s)
    ∨ (s.device.tau < s.cfg.tW0Min ∧ s.device.lineNow = true ∧ (s.cfg.skip = false ∨ s.cfg.tW1Min ≤ s.device.tau)
      ∧ writePoll s = afterClassification (write1Delivered s))
    ∨ (s.device.tau < s.cfg.tW0Min ∧ s.device.lineNow = false ∧ writePoll s = waitIn .wPoll s) := by
  by_cases h : s.cfg.tW0Min ≤ s.device.tau
  · exact .inl ⟨h, if_pos h⟩
  · have hlt := Nat.lt_of_not_le h
    cases hl : s.device.lineNow with
    | false => exact .inr (.inr (.inr ⟨hlt, rfl, (if_neg h).trans (if_neg (by simp [line, hl]))⟩))
    | true =>
      by_cases hg : s.cfg.skip = true ∧ s.device.tau < s.cfg.tW1Min
      · exact .inr (.inl ⟨hlt, rfl, hg.1, hg.2,
          (if_neg h).trans ((if_pos hl).trans (if_pos (by rw [Bool.and_eq_true, decide_eq_true_eq]; exact hg)))⟩)
      · refine .inr (.inr (.inl ⟨hlt, rfl, ?_,
          (if_neg h).trans ((if_pos hl).trans (if_neg (by rw [Bool.and_eq_true, decide_eq_true_eq]; exact hg)))⟩))
        cases hs : s.cfg.skip with
        | false => exact .inl rfl
        | true => exact .inr (Nat.le_of_not_lt fun hw => hg ⟨hs, hw⟩)

theorem kept_writePoll (s : State) : Kept s (writePoll s) := by
  rcases writePoll_cases s with ⟨_, e⟩ | ⟨_, _, _, _, e⟩ | ⟨_, _, _, e⟩ | ⟨_, _, e⟩ <;> rw [e]
  · exact (kept_write0Delivered s).comp (kept_afterClassification _)
  · exact kept_exitGlitch s
  · exact (kept_write1Delivered s).comp (kept_afterClassification _)
  · exact kept_waitIn _ s

/-- The two cases of the Read-0 hold (R125). -/
theorem holdPoll_cases (s : State) :
    (s.device.tau < s.cfg.tR0Ext ∧ holdPoll s = waitIn .r0Hold s)
    ∨ (s.cfg.tR0Ext ≤ s.device.tau
      ∧ holdPoll s = afterClassification (readDelivered .read0 (onDevice Device.setInputMode s))) := by
  by_cases h : s.device.tau < s.cfg.tR0Ext
  · exact .inl ⟨h, if_pos h⟩
  · exact .inr ⟨Nat.le_of_not_lt h, if_neg h⟩

theorem kept_holdPoll (s : State) : Kept s (holdPoll s) := by
  rcases holdPoll_cases s with ⟨_, e⟩ | ⟨_, e⟩ <;> rw [e]
  · exact kept_waitIn _ s
  · exact ((kept_setInputMode s).comp (kept_readDelivered .read0 _)).comp (kept_afterClassification _)

theorem kept_fastPath (s : State) : Kept s (fastPath s) := by
  unfold fastPath
  split
  · exact kept_exitGlitch s
  · exact ((kept_setDrivenLow s).comp (kept_strobe s.cfg.debugStrobe _)).comp (kept_holdPoll _)

/-- The Timer is zeroed and started, then the classification that `armed` and ER select (R113). -/
theorem firstAction_cases (s : State) :
    let s1 := onDevice (fun d => d.timerReset.timerStart) { s with latCount := 0 }
    (s.session.read0Armed = true ∧ firstAction s = fastPath s1)
    ∨ (s.session.read0Armed = false ∧ s.session.expectingRead = true
      ∧ firstAction s = afterClassification (readDelivered .read1 s1))
    ∨ (s.session.read0Armed = false ∧ s.session.expectingRead = false ∧ firstAction s = writePoll s1) := by
  intro s1
  cases ha : s.session.read0Armed with
  | true => exact .inl ⟨rfl, if_pos ha⟩
  | false =>
    have hn : ¬ s1.session.read0Armed = true := by
      intro h
      exact absurd (ha.symm.trans h) (by decide)
    cases he : s.session.expectingRead with
    | true => exact .inr (.inl ⟨rfl, rfl, (if_neg hn).trans (if_pos he)⟩)
    | false =>
      have hm : ¬ s1.session.expectingRead = true := by
        intro h
        exact absurd (he.symm.trans h) (by decide)
      exact .inr (.inr ⟨rfl, rfl, (if_neg hn).trans (if_neg hm)⟩)

theorem kept_firstAction (s : State) : Kept s (firstAction s) := by
  have h1 : Kept s (onDevice (fun d => d.timerReset.timerStart) { s with latCount := 0 }) :=
    ⟨rfl, rfl, rfl, rfl, rfl, rfl, rfl, rfl, rfl, rfl, id, .inr rfl, id⟩
  rcases firstAction_cases s with ⟨_, e⟩ | ⟨_, _, e⟩ | ⟨_, _, e⟩ <;> rw [e]
  · exact h1.comp (kept_fastPath _)
  · exact (h1.comp (kept_readDelivered .read1 _)).comp (kept_afterClassification _)
  · exact h1.comp (kept_writePoll _)

/-- Entry with LAT = 1 runs the first action in the same tick; else the latency begins (R112). -/
theorem enterHandler_cases (s : State) :
    (s.cfg.lat ≤ 1 ∧ enterHandler s = firstAction (takeInterrupt s))
    ∨ (2 ≤ s.cfg.lat ∧ enterHandler s = takeInterrupt s) := by
  by_cases h : s.cfg.lat ≤ 1
  · exact .inl ⟨h, if_pos h⟩
  · exact .inr ⟨Nat.lt_of_not_le h, if_neg h⟩

/-- The first action comes when LAT - 1 ticks have passed (R112). -/
theorem latencyPoll_cases (s : State) :
    (s.cfg.lat ≤ s.latCount + 2 ∧ latencyPoll s = firstAction { s with latCount := s.latCount + 1 })
    ∨ (s.latCount + 2 < s.cfg.lat ∧ latencyPoll s = { s with latCount := s.latCount + 1 }) := by
  by_cases h : s.cfg.lat ≤ s.latCount + 2
  · exact .inl ⟨h, if_pos h⟩
  · exact .inr ⟨Nat.lt_of_not_le h, if_neg h⟩

theorem kept_enterHandler (s : State) : Kept s (enterHandler s) := by
  rcases enterHandler_cases s with ⟨_, e⟩ | ⟨_, e⟩ <;> rw [e]
  · exact (kept_takeInterrupt s).comp (kept_firstAction _)
  · exact kept_takeInterrupt s

theorem kept_latencyPoll (s : State) : Kept s (latencyPoll s) := by
  rcases latencyPoll_cases s with ⟨_, e⟩ | ⟨_, e⟩ <;> rw [e]
  · exact (kept_latCount _ s).comp (kept_firstAction _)
  · exact kept_latCount _ s

/-- What the handler keeps in any tick, whatever its position. -/
theorem kept_handlerTick (s : State) : Kept s (handlerTick s) := by
  unfold handlerTick
  split
  · split
    · exact kept_enterHandler s
    · exact .same s
  · exact kept_latencyPoll s
  · exact kept_writePoll s
  · exact kept_holdPoll s
  · exact kept_finalisationPoll kept_exitHandler s
  · exact kept_releasePoll s
  · exact kept_idlePoll s
  · exact kept_presencePoll s

/-! ### The strobe: nothing after the fast path's assertion writes it (R132) -/

@[simp] theorem presencePoll_debugStrobe (s : State) :
    (presencePoll s).device.debugStrobe = s.device.debugStrobe := by
  rcases presencePoll_cases s with ⟨_, e⟩ | ⟨_, e⟩ <;> rw [e] <;> rfl

@[simp] theorem idlePoll_debugStrobe (s : State) : (idlePoll s).device.debugStrobe = s.device.debugStrobe := by
  rcases idlePoll_cases s with ⟨_, e⟩ | ⟨_, e⟩ <;> rw [e]
  · rfl
  · exact presencePoll_debugStrobe _

@[simp] theorem releasePoll_debugStrobe (s : State) : (releasePoll s).device.debugStrobe = s.device.debugStrobe := by
  rcases releasePoll_cases s with ⟨_, e⟩ | ⟨_, e⟩ <;> rw [e]
  · rfl
  · exact idlePoll_debugStrobe _

@[simp] theorem resetSequence_debugStrobe (s : State) :
    (resetSequence s).device.debugStrobe = s.device.debugStrobe := releasePoll_debugStrobe _

theorem finalisationPoll_debugStrobe {released : State → State}
    (hr : ∀ s, (released s).device.debugStrobe = s.device.debugStrobe) (s : State) :
    (finalisationPoll released s).device.debugStrobe = s.device.debugStrobe := by
  rcases finalisationPoll_cases released s with ⟨_, e⟩ | ⟨_, _, _, e⟩ | ⟨_, _, _, e⟩ <;> rw [e]
  · exact resetSequence_debugStrobe _
  · exact hr _
  · rfl

@[simp] theorem afterClassification_debugStrobe (s : State) :
    (afterClassification s).device.debugStrobe = s.device.debugStrobe := by
  unfold afterClassification
  split
  · exact finalisationPoll_debugStrobe (released := exitHandler) (fun _ => rfl) s
  · rfl

@[simp] theorem writePoll_debugStrobe (s : State) : (writePoll s).device.debugStrobe = s.device.debugStrobe := by
  rcases writePoll_cases s with ⟨_, e⟩ | ⟨_, _, _, _, e⟩ | ⟨_, _, _, e⟩ | ⟨_, _, e⟩ <;> rw [e]
  · exact afterClassification_debugStrobe _
  · rfl
  · exact afterClassification_debugStrobe _
  · rfl

@[simp] theorem holdPoll_debugStrobe (s : State) : (holdPoll s).device.debugStrobe = s.device.debugStrobe := by
  rcases holdPoll_cases s with ⟨_, e⟩ | ⟨_, e⟩ <;> rw [e]
  · rfl
  · exact afterClassification_debugStrobe _

/-! ### One tick -/

/-- What a tick leaves of the registers the handler does not write: the store, the configuration and the queue are as
before, the pending flag and the line samples are the edge detector's (R36, R111). -/
theorem tick_frame (low : Bool) (s : State) :
    (tick low s).cfg = s.cfg ∧ (tick low s).mem = s.mem ∧ (tick low s).input = s.input
    ∧ (tick low s).lowTicks = s.lowTicks ∧ (tick low s).retBit = s.retBit ∧ (tick low s).retTicks = s.retTicks
    ∧ (tick low s).device.irqEnable = s.device.irqEnable
    ∧ (tick low s).device.prevLine = s.device.lineNow ∧ (tick low s).device.clearNow = false := by
  have h := kept_handlerTick (onDevice (fun d => { d with debugStrobe := false }) s)
  exact ⟨h.cfg, h.mem, h.input, h.lowTicks, h.retBit, h.retTicks, h.irqEnable, h.lineNow, rfl⟩

/-- A tick keeps the mask one-hot. -/
theorem tick_oneHot (low : Bool) {s : State} (h : OneHot s.session.bitMask) :
    OneHot (tick low s).session.bitMask :=
  (kept_handlerTick (onDevice (fun d => { d with debugStrobe := false }) s)).mask h

/-- A tick keeps the Timer below `2^TIMER_BITS` (R22). -/
theorem tick_tau (low : Bool) {s : State} (h : s.device.tau < 2 ^ s.cfg.timerBits) :
    (tick low s).device.tau < 2 ^ s.cfg.timerBits := by
  have k := kept_handlerTick (onDevice (fun d => { d with debugStrobe := false }) s)
  show tauNext _ _ < _
  unfold tauNext timerValue
  split
  · rw [k.cfg]; exact Nat.mod_lt _ (Nat.two_pow_pos _)
  · rcases k.tau with e | e <;> rw [e]
    · exact h
    · exact Nat.two_pow_pos _

end Sys2Proof.Machine
end

