-- ==== Sys2Proof/Laws/Memory.lean ====
section
/-! SUPPORT. The identity store: every operation keeps the canonical form, a read after a write, and equal reads make
equal stores. -/

namespace Sys2Proof.Machine

theorem canonicalFrom_cons {lo a : Nat} {b : Byte} {r : Memory} :
    canonicalFrom lo ((a, b) :: r) = true ↔
      lo ≤ a ∧ a < 8 ∧ b ≠ unlistedByte a ∧ canonicalFrom (a + 1) r = true := by
  simp [canonicalFrom, and_assoc]

theorem canonicalFrom_mono {lo hi : Nat} {m : Memory} (h : canonicalFrom hi m = true) (hle : lo ≤ hi) :
    canonicalFrom lo m = true := by
  cases m with
  | nil => rfl
  | cons e r =>
    rw [canonicalFrom_cons] at h ⊢
    exact ⟨by omega, h.2⟩

/-- An address below the form's start is not listed. -/
theorem listedByte_below {lo a : Nat} {m : Memory} (h : canonicalFrom lo m = true) (ha : a < lo) :
    listedByte m a = none := by
  induction m generalizing lo with
  | nil => rfl
  | cons e r ih =>
    obtain ⟨x, c⟩ := e
    rw [canonicalFrom_cons] at h
    have hne : a ≠ x := by omega
    simp [listedByte, hne, ih h.2.2.2 (by omega)]

theorem putByte_canonicalFrom {lo a : Nat} {b : Byte} {m : Memory} (h : canonicalFrom lo m = true)
    (hlo : lo ≤ a) (ha : a < 8) : canonicalFrom lo (putByte m a b) = true := by
  induction m generalizing lo with
  | nil =>
    by_cases hb : b = unlistedByte a
    · simp [putByte, hb, canonicalFrom]
    · simp [putByte, hb, canonicalFrom, hlo, ha]
  | cons e r ih =>
    obtain ⟨x, c⟩ := e
    have h' := h
    rw [canonicalFrom_cons] at h
    obtain ⟨hx, hx8, hc, hr⟩ := h
    unfold putByte
    split
    next hlt =>
      split
      next => exact h'
      next hb => exact canonicalFrom_cons.2 ⟨hlo, ha, hb, canonicalFrom_cons.2 ⟨by omega, hx8, hc, hr⟩⟩
    next hge =>
      split
      next heq =>
        subst heq
        split
        next => exact canonicalFrom_mono hr (by omega)
        next hb => exact canonicalFrom_cons.2 ⟨hlo, ha, hb, hr⟩
      next hne => exact canonicalFrom_cons.2 ⟨hx, hx8, hc, ih hr (by omega)⟩

/-- Every store of a byte keeps the canonical form. -/
theorem writeByte_wf {m m' : Memory} {a : Nat} {b : Byte} (h : m.wf = true) (hw : writeByte m a b = some m') :
    m'.wf = true := by
  unfold writeByte at hw
  split at hw
  next ha => cases hw; exact putByte_canonicalFrom h (by omega) ha
  next => cases hw

theorem listedByte_putByte_same {lo a : Nat} {b : Byte} {m : Memory} (h : canonicalFrom lo m = true) :
    (listedByte (putByte m a b) a).getD (unlistedByte a) = b := by
  induction m generalizing lo with
  | nil =>
    by_cases hb : b = unlistedByte a
    · simp [putByte, hb, listedByte]
    · simp [putByte, hb, listedByte]
  | cons e r ih =>
    obtain ⟨x, c⟩ := e
    rw [canonicalFrom_cons] at h
    obtain ⟨hx, hx8, hc, hr⟩ := h
    unfold putByte
    split
    next hlt =>
      split
      next hb =>
        have hn := listedByte_below hr (show a < x + 1 by omega)
        simp [listedByte, show a ≠ x by omega, hn, hb]
      next => simp [listedByte]
    next =>
      split
      next heq =>
        subst heq
        split
        next hb => simp [listedByte_below hr (show a < a + 1 by omega), hb]
        next => simp [listedByte]
      next hne => simpa [listedByte, hne] using ih hr

theorem listedByte_putByte_other {a a' : Nat} {b : Byte} {m : Memory} (hne : a' ≠ a) :
    listedByte (putByte m a b) a' = listedByte m a' := by
  induction m with
  | nil => unfold putByte; split <;> simp [listedByte, hne]
  | cons e r ih =>
    obtain ⟨x, c⟩ := e
    unfold putByte
    split
    next => split <;> simp [listedByte, hne]
    next =>
      split
      next heq => subst heq; split <;> simp [listedByte, hne]
      next => simp [listedByte, ih]

/-- Reading the address a byte was stored at gives that byte. -/
theorem readByte_writeByte_same {m m' : Memory} {a : Nat} {b : Byte} (h : m.wf = true)
    (hw : writeByte m a b = some m') : readByte m' a = some b := by
  unfold writeByte at hw
  split at hw
  next ha => cases hw; simp [readByte, ha, listedByte_putByte_same h]
  next => cases hw

/-- Storing a byte leaves every other address as it was. -/
theorem readByte_writeByte_other {m m' : Memory} {a a' : Nat} {b : Byte} (hw : writeByte m a b = some m')
    (hne : a' ≠ a) : readByte m' a' = readByte m a' := by
  unfold writeByte at hw
  split at hw
  next => cases hw; simp [readByte, listedByte_putByte_other hne]
  next => cases hw

/-- An address beyond 7 does not exist. -/
theorem readByte_outside {m : Memory} {a : Nat} (ha : 8 ≤ a) : readByte m a = none := by
  simp [readByte, show ¬ a < 8 by omega]

/-- A byte index always addresses a byte that exists. -/
theorem readByte_index (m : Memory) (i : Fin 8) : readByte m i.val = some (identityByte m i) := by
  simp [readByte, identityByte, i.isLt]

/-- A provisioned store is in canonical form, whatever the bytes. -/
theorem provision_wf (b0 b1 b2 b3 b4 b5 b6 b7 : Byte) : (provision b0 b1 b2 b3 b4 b5 b6 b7).wf = true := by
  unfold provision Memory.wf
  have e : canonicalFrom 0 [] = true := rfl
  have h0 := putByte_canonicalFrom (a := 0) (b := b0) e (by omega) (by omega)
  have h1 := putByte_canonicalFrom (a := 1) (b := b1) h0 (by omega) (by omega)
  have h2 := putByte_canonicalFrom (a := 2) (b := b2) h1 (by omega) (by omega)
  have h3 := putByte_canonicalFrom (a := 3) (b := b3) h2 (by omega) (by omega)
  have h4 := putByte_canonicalFrom (a := 4) (b := b4) h3 (by omega) (by omega)
  have h5 := putByte_canonicalFrom (a := 5) (b := b5) h4 (by omega) (by omega)
  have h6 := putByte_canonicalFrom (a := 6) (b := b6) h5 (by omega) (by omega)
  exact putByte_canonicalFrom (a := 7) (b := b7) h6 (by omega) (by omega)

/-- Two stores in canonical form that read alike at every address are equal. -/
theorem canonicalFrom_ext {lo : Nat} {m m' : Memory} (h : canonicalFrom lo m = true) (h' : canonicalFrom lo m' = true)
    (heq : ∀ a, (listedByte m a).getD (unlistedByte a) = (listedByte m' a).getD (unlistedByte a)) : m = m' := by
  induction m generalizing lo m' with
  | nil =>
    cases m' with
    | nil => rfl
    | cons e r =>
      obtain ⟨x, c⟩ := e
      rw [canonicalFrom_cons] at h'
      have hx := heq x
      simp only [listedByte, if_true, Option.getD_none, Option.getD_some] at hx
      exact absurd hx.symm h'.2.2.1
  | cons e r ih =>
    obtain ⟨x, c⟩ := e
    have hm := canonicalFrom_cons.1 h
    cases m' with
    | nil =>
      have hx := heq x
      simp only [listedByte, if_true, Option.getD_none, Option.getD_some] at hx
      exact absurd hx hm.2.2.1
    | cons e' r' =>
      obtain ⟨x', c'⟩ := e'
      have hm' := canonicalFrom_cons.1 h'
      rcases Nat.lt_trichotomy x x' with hlt | heqx | hgt
      · have hx := heq x
        rw [listedByte_below (canonicalFrom_cons.2 ⟨le_refl x', hm'.2⟩) hlt] at hx
        simp only [listedByte, if_true, Option.getD_none, Option.getD_some] at hx
        exact absurd hx hm.2.2.1
      · subst heqx
        have hx := heq x
        simp only [listedByte, if_true, Option.getD_some] at hx
        subst hx
        have hr : r = r' := by
          refine ih hm.2.2.2 hm'.2.2.2 fun a => ?_
          by_cases ha : a = x
          · subst ha
            rw [listedByte_below hm.2.2.2 (by omega), listedByte_below hm'.2.2.2 (by omega)]
          · simpa [listedByte, ha] using heq a
        rw [hr]
      · have hx := heq x'
        rw [listedByte_below (canonicalFrom_cons.2 ⟨le_refl x, hm.2⟩) hgt] at hx
        simp only [listedByte, if_true, Option.getD_none, Option.getD_some] at hx
        exact absurd hx.symm hm'.2.2.1

end Sys2Proof.Machine
end

