-- ==== Sys2Proof/Laws/Pulse.lean ====
section
/-! SUPPORT. What every whole pass keeps (`PassKept`), and the cases of the end of a pass. -/

namespace Sys2Proof.Machine

open Sys2Proof.Safety

/-- What no statement of an event-level pass changes, and the two relations every one keeps: the mask stays one-hot, the
Timer stays below `2^TIMER_BITS`. -/
structure PassKept (s t : State) : Prop where
  cfg : t.cfg = s.cfg
  mem : t.mem = s.mem
  input : t.input = s.input
  lowTicks : t.lowTicks = s.lowTicks
  retBit : t.retBit = s.retBit
  retTicks : t.retTicks = s.retTicks
  irqEnable : t.device.irqEnable = s.device.irqEnable
  tau : s.device.tau < 2 ^ s.cfg.timerBits → t.device.tau < 2 ^ s.cfg.timerBits
  mask : OneHot s.session.bitMask → OneHot t.session.bitMask

theorem PassKept.same (s : State) : PassKept s s := ⟨rfl, rfl, rfl, rfl, rfl, rfl, rfl, id, id⟩

theorem PassKept.comp {s t u : State} (h : PassKept s t) (k : PassKept t u) : PassKept s u where
  cfg := k.cfg.trans h.cfg
  mem := k.mem.trans h.mem
  input := k.input.trans h.input
  lowTicks := k.lowTicks.trans h.lowTicks
  retBit := k.retBit.trans h.retBit
  retTicks := k.retTicks.trans h.retTicks
  irqEnable := k.irqEnable.trans h.irqEnable
  tau hs := by
    have := k.tau (by rw [h.cfg]; exact h.tau hs)
    rwa [h.cfg] at this
  mask := k.mask ∘ h.mask

/-- A statement of the handler is a statement of a pass. -/
theorem Kept.toPass {s t : State} (h : Kept s t) : PassKept s t :=
  ⟨h.cfg, h.mem, h.input, h.lowTicks, h.retBit, h.retTicks, h.irqEnable,
    fun hs => h.tau.elim (fun e => by rwa [e]) (fun e => by rw [e]; exact Nat.two_pow_pos _), h.mask⟩

theorem passKept_beginPass (s : State) : PassKept s (beginPass s) := ⟨rfl, rfl, rfl, rfl, rfl, rfl, rfl, id, id⟩

theorem passKept_settle (high : Bool) (count : Nat) (s : State) : PassKept s (settle high count s) :=
  ⟨rfl, rfl, rfl, rfl, rfl, rfl, rfl, fun _ => Nat.mod_lt _ (Nat.two_pow_pos _), id⟩

theorem passKept_resetPass (s : State) : PassKept s (resetPass s) :=
  ⟨rfl, rfl, rfl, rfl, rfl, rfl, rfl, fun _ => Nat.mod_lt _ (Nat.two_pow_pos _), fun _ => oneHot_one⟩

/-! ### The end of a pass -/

/-- A pass without RESET ends in the handler exit, with PR clear (R127, R129). -/
theorem concludePass_released {reached : Bool} {count : Nat} {s : State}
    (h : (s.session.possibleReset && (reached || s.session.timerOverflow)) = false) :
    concludePass reached count s =
      exitHandler (settle true count (onSession (fun x => { x with possibleReset := false }) s)) := by
  simp only [concludePass, h, Bool.false_eq_true, if_false]

/-- A pass that finalises a Reset runs RESET, then the handler exit (R127, R128). -/
theorem concludePass_reset {reached : Bool} {count : Nat} {s : State}
    (h : (s.session.possibleReset && (reached || s.session.timerOverflow)) = true) :
    concludePass reached count s =
      exitHandler (resetPass (onSession (fun x => { x with possibleReset := false }) s)) := by
  simp only [concludePass, h, if_true]

theorem passKept_concludePass (reached : Bool) (count : Nat) (s : State) :
    PassKept s (concludePass reached count s) := by
  have hc := (kept_clearPossibleReset s).toPass
  cases h : s.session.possibleReset && (reached || s.session.timerOverflow) with
  | false =>
    rw [concludePass_released h]
    exact (hc.comp (passKept_settle true count _)).comp (kept_exitHandler _).toPass
  | true =>
    rw [concludePass_reset h]
    exact (hc.comp (passKept_resetPass _)).comp (kept_exitHandler _).toPass

/-! ### Whole passes -/

theorem passKept_glitchPass (s : State) : PassKept s (glitchPass s) :=
  ((passKept_beginPass s).comp (passKept_settle true s.lowTicks _)).comp (kept_exitGlitch _).toPass

theorem passKept_write1Pass (s : State) : PassKept s (write1Pass s) :=
  ((passKept_beginPass s).comp (kept_write1Delivered _).toPass).comp (passKept_concludePass _ _ _)

theorem passKept_write0Pass (reached : Bool) (s : State) : PassKept s (write0Pass reached s) :=
  ((passKept_beginPass s).comp (kept_write0Delivered _).toPass).comp (passKept_concludePass _ _ _)

theorem passKept_read1Pass (reached : Bool) (s : State) : PassKept s (read1Pass reached s) :=
  ((passKept_beginPass s).comp (kept_readDelivered .read1 _).toPass).comp (passKept_concludePass _ _ _)

theorem passKept_read0Pass (reached : Bool) (s : State) : PassKept s (read0Pass reached s) :=
  (((passKept_beginPass s).comp (kept_setInputMode _).toPass).comp (kept_readDelivered .read0 _).toPass).comp
    (passKept_concludePass _ _ _)

theorem passKept_read0PhantomPass (s : State) : PassKept s (read0PhantomPass s) := by
  have h : PassKept (beginPass s)
      (onDevice (fun d => { d.setInputMode with irqPending := true }) (beginPass s)) :=
    ⟨rfl, rfl, rfl, rfl, rfl, rfl, rfl, id, id⟩
  exact (((passKept_beginPass s).comp h).comp (kept_readDelivered .read0 _).toPass).comp
    (passKept_concludePass _ _ _)

theorem passKept_armedPass (skip : Bool) (b : Band) (s : State) : PassKept s (armedPass skip b s) := by
  cases b with
  | bandZ =>
    cases skip
    · exact passKept_read0PhantomPass s
    · exact passKept_glitchPass s
  | bandA => exact passKept_read0Pass false s
  | bandB => exact passKept_read0Pass false s
  | bandC => exact passKept_read0Pass false s
  | bandD => exact passKept_read0Pass true s

theorem passKept_readPass (b : Band) (s : State) : PassKept s (readPass b s) := by
  cases b
  · exact passKept_read1Pass false s
  · exact passKept_read1Pass false s
  · exact passKept_read1Pass false s
  · exact passKept_read1Pass false s
  · exact passKept_read1Pass true s

theorem passKept_writePass (skip : Bool) (b : Band) (s : State) : PassKept s (writePass skip b s) := by
  cases b with
  | bandZ =>
    cases skip
    · exact passKept_write1Pass s
    · exact passKept_glitchPass s
  | bandA =>
    cases skip
    · exact passKept_write1Pass s
    · exact passKept_glitchPass s
  | bandB => exact passKept_write1Pass s
  | bandC => exact passKept_write0Pass false s
  | bandD => exact passKept_write0Pass true s

/-- What any pass keeps, whatever its band. -/
theorem passKept_eventPass (b : Band) (s : State) : PassKept s (eventPass b s) := by
  unfold eventPass
  split
  · exact passKept_armedPass _ b s
  · split
    · exact passKept_readPass b s
    · exact passKept_writePass _ b s

/-- What any sequence of slots keeps. -/
theorem passKept_runSlots (bands : List Band) (seen : List BusEvent) (s : State) :
    PassKept s (runSlots bands seen s) := by
  induction bands generalizing seen s with
  | nil => exact ⟨rfl, rfl, rfl, rfl, rfl, rfl, rfl, id, id⟩
  | cons b bs ih => exact (passKept_eventPass b s).comp (ih _ _)

end Sys2Proof.Machine
end

