-- ==== Sys2Proof/Laws/Step.lean ====
section
/-! SUPPORT. What a step that answers a next state can be, said once. -/

namespace Sys2Proof.Machine

/-- The five kinds of step that answer a next state (assumption 3). -/
theorem step_cases {s t : State} (h : step s = .next t) :
    configLegal s.cfg = true
    ∧ ((s.input = [] ∧ t = tick false s)
      ∨ (∃ low rest, s.input = .tick low :: rest ∧ t = tick low { s with input := rest })
      ∨ (∃ n rest, s.input = .pulse n :: rest ∧ pulseAccepted s = true
          ∧ runBytes (pulseBytes n s) { s with lowTicks := n, input := rest } = .next t)
      ∨ (∃ bytes rest, s.input = .word bytes :: rest ∧ runBytes bytes { s with input := rest } = .next t)
      ∨ (∃ low rest, s.input = .por low :: rest ∧ t = boot low { s with input := rest })) := by
  unfold step at h
  split at h
  next hc =>
    refine ⟨hc, ?_⟩
    split at h
    next hi => exact .inl ⟨hi, (Host.Outcome.next.inj h).symm⟩
    next low rest hi => exact .inr (.inl ⟨low, rest, hi, (Host.Outcome.next.inj h).symm⟩)
    next n rest hi =>
      split at h
      next ha => exact .inr (.inr (.inl ⟨n, rest, hi, ha, h⟩))
      next => cases h
    next bytes rest hi => exact .inr (.inr (.inr (.inl ⟨bytes, rest, hi, h⟩)))
    next low rest hi => exact .inr (.inr (.inr (.inr ⟨low, rest, hi, (Host.Outcome.next.inj h).symm⟩)))
  next => cases h

/-- An operation word that answers a next state has decoded (assumption 9). -/
theorem runBytes_next {bytes : List Byte} {s t : State} (h : runBytes bytes s = .next t) :
    ∃ i, decode s.cfg.cmdDiscover bytes = .ok i ∧ exec i s = .next t := by
  unfold runBytes at h
  split at h
  next i hi => exact ⟨i, hi, h⟩
  next => cases h

end Sys2Proof.Machine
end

