-- ==== Sys2Proof/Laws/PerInstr.lean ====
section
/-! SUPPORT. A per-instruction family: every operation word has two bytes (assumption 9). -/

namespace Sys2Proof.Laws.EncodesInTwoBytes

/-- The encoder gives two bytes, whatever CMD_DISCOVER is. -/
def Statement (i : Instr) : Prop := ∀ disc : Byte, (encode disc i).length = 2

theorem glitch (b : Band) : Statement (.glitch b) := fun _ => rfl
theorem write1Short (b : Band) : Statement (.write1Short b) := fun _ => rfl
theorem write1BandB (k : Bool) : Statement (.write1BandB k) := fun _ => rfl
theorem write0 (k : Bool) : Statement (.write0 k) := fun _ => rfl
theorem write0Reset (k : Bool) : Statement (.write0Reset k) := fun _ => rfl
theorem read1 (k : Bool) (b : Band) : Statement (.read1 k b) := fun _ => rfl
theorem read1Reset (k : Bool) : Statement (.read1Reset k) := fun _ => rfl
theorem glitchFast : Statement .glitchFast := fun _ => rfl
theorem read0BandZ : Statement .read0BandZ := fun _ => rfl
theorem read0BandA (k : Bool) : Statement (.read0BandA k) := fun _ => rfl
theorem read0BandBC (k : Bool) (b : Band) : Statement (.read0BandBC k b) := fun _ => rfl
theorem read0Reset (k : Bool) : Statement (.read0Reset k) := fun _ => rfl
theorem armedNotER (k : Bool) (b : Band) : Statement (.armedNotER k b) := fun _ => rfl
theorem readIdentity : Statement .readIdentity := fun _ => rfl
theorem discover : Statement .discover := fun _ => rfl
theorem cmdOther (c : Byte) : Statement (.cmdOther c) := fun _ => rfl
theorem id64 : Statement .id64 := fun _ => rfl
theorem triplet (w : Bool) : Statement (.triplet w) := fun _ => rfl
theorem onReset : Statement .onReset := fun _ => rfl
theorem onWriteBit (bit : Bool) : Statement (.onWriteBit bit) := fun _ => rfl
theorem onWriteBitResetReceived (bit : Bool) : Statement (.onWriteBitResetReceived bit) := fun _ => rfl
theorem onWriteBitDiscover (bit : Bool) : Statement (.onWriteBitDiscover bit) := fun _ => rfl
theorem onWriteBitIdleOrReportIdentity (bit : Bool) : Statement (.onWriteBitIdleOrReportIdentity bit) := fun _ => rfl
theorem onReadBitRequested : Statement .onReadBitRequested := fun _ => rfl
theorem onReadBitReportIdentity : Statement .onReadBitReportIdentity := fun _ => rfl
theorem onReadBitDiscover : Statement .onReadBitDiscover := fun _ => rfl
theorem onReadBitIdleOrResetReceived : Statement .onReadBitIdleOrResetReceived := fun _ => rfl
theorem switchToReadMode : Statement .switchToReadMode := fun _ => rfl
theorem deferredSwitchToWrite : Statement .deferredSwitchToWrite := fun _ => rfl
theorem advanceCursor : Statement .advanceCursor := fun _ => rfl
theorem rearm : Statement .rearm := fun _ => rfl
theorem resetFinalisation : Statement .resetFinalisation := fun _ => rfl
theorem reset : Statement .reset := fun _ => rfl
theorem handlerExit : Statement .handlerExit := fun _ => rfl
theorem setInputMode : Statement .setInputMode := fun _ => rfl
theorem setDrivenLow : Statement .setDrivenLow := fun _ => rfl
theorem readLevel : Statement .readLevel := fun _ => rfl
theorem timerStart : Statement .timerStart := fun _ => rfl
theorem timerStop : Statement .timerStop := fun _ => rfl
theorem timerResetToZero : Statement .timerResetToZero := fun _ => rfl
theorem timerReadTicks : Statement .timerReadTicks := fun _ => rfl
theorem timerOverflowIndicator : Statement .timerOverflowIndicator := fun _ => rfl
theorem configureFallingEdge (src : EdgeSource) : Statement (.configureFallingEdge src) := fun _ => rfl
theorem clearPendingFlag : Statement .clearPendingFlag := fun _ => rfl
theorem enableGlobalInterrupts : Statement .enableGlobalInterrupts := fun _ => rfl

end Sys2Proof.Laws.EncodesInTwoBytes
end

