-- ==== Sys2Proof/Tests/Slice0.lean ====
section
/-! SUPPORT. Named tests: the operand checks, a word of every constructor written out from the encoding, single steps
whose results come from spec/95_test_vectors.md, and a witness for the hypotheses of each statement. -/

namespace Sys2Proof.Tests

open Sys2Proof Sys2Proof.Machine Sys2Proof.Safety

/-! ### Operand checks: a term that each check refuses -/

theorem test_glitch_refuses_bandB : (Instr.glitch .bandB).wellFormed 0xF0#8 = false := by decide
theorem test_write1Short_refuses_bandC : (Instr.write1Short .bandC).wellFormed 0xF0#8 = false := by decide
theorem test_read1_refuses_bandD : (Instr.read1 true .bandD).wellFormed 0xF0#8 = false := by decide
theorem test_read0_refuses_bandZ : (Instr.read0BandBC false .bandZ).wellFormed 0xF0#8 = false := by decide
theorem test_discover_refuses_0x33 : Instr.discover.wellFormed 0x33#8 = false := by decide
theorem test_other_refuses_0x33 : (Instr.cmdOther 0x33#8).wellFormed 0xF0#8 = false := by decide
theorem test_other_refuses_discover : (Instr.cmdOther 0xF0#8).wellFormed 0xF0#8 = false := by decide

/-! ### Decoding: keys from 30_encoding R84 (SKIP, ER, armed, band code), bytes from R88 -/

/-- `decode` at the suggested CMD_DISCOVER, code byte first. -/
def dec (code format : Byte) : Option Instr :=
  match decode 0xF0#8 [code, format] with
  | .ok i => some i
  | .error _ => none

theorem test_decode_write_mode :
    dec 0b00100000#8 1#8 = some (.glitch .bandZ) ∧ dec 0b00100001#8 1#8 = some (.glitch .bandA)
    ∧ dec 0b00000000#8 1#8 = some (.write1Short .bandZ) ∧ dec 0b00000001#8 1#8 = some (.write1Short .bandA)
    ∧ dec 0b00000010#8 1#8 = some (.write1BandB false) ∧ dec 0b00100010#8 1#8 = some (.write1BandB true)
    ∧ dec 0b00000011#8 1#8 = some (.write0 false) ∧ dec 0b00100011#8 1#8 = some (.write0 true)
    ∧ dec 0b00000100#8 1#8 = some (.write0Reset false) ∧ dec 0b00100100#8 1#8 = some (.write0Reset true) := by
  decide
theorem test_decode_read_mode :
    dec 0b00010000#8 1#8 = some (.read1 false .bandZ) ∧ dec 0b00110011#8 1#8 = some (.read1 true .bandC)
    ∧ dec 0b00010100#8 1#8 = some (.read1Reset false) ∧ dec 0b00110100#8 1#8 = some (.read1Reset true) := by
  decide
theorem test_decode_armed :
    dec 0b00111000#8 1#8 = some .glitchFast ∧ dec 0b00011000#8 1#8 = some .read0BandZ
    ∧ dec 0b00111001#8 1#8 = some (.read0BandA true) ∧ dec 0b00011010#8 1#8 = some (.read0BandBC false .bandB)
    ∧ dec 0b00111011#8 1#8 = some (.read0BandBC true .bandC) ∧ dec 0b00011100#8 1#8 = some (.read0Reset false)
    ∧ dec 0b00101000#8 1#8 = some (.armedNotER true .bandZ)
    ∧ dec 0b00001100#8 1#8 = some (.armedNotER false .bandD) := by decide
theorem test_decode_commands :
    dec 0b00110011#8 2#8 = some .readIdentity ∧ dec 0b11110000#8 2#8 = some .discover
    ∧ dec 0b00000000#8 2#8 = some (.cmdOther 0x00#8) ∧ dec 0b11111111#8 2#8 = some (.cmdOther 0xFF#8) := by decide
theorem test_decode_compounds :
    dec 0#8 3#8 = some .id64 ∧ dec 0#8 4#8 = some (.triplet false) ∧ dec 1#8 4#8 = some (.triplet true) := by decide
theorem test_decode_engine :
    dec 0#8 5#8 = some .onReset ∧ dec 3#8 5#8 = some (.onWriteBit true)
    ∧ dec 4#8 5#8 = some (.onWriteBitResetReceived false) ∧ dec 7#8 5#8 = some (.onWriteBitDiscover true)
    ∧ dec 8#8 5#8 = some (.onWriteBitIdleOrReportIdentity false) ∧ dec 10#8 5#8 = some .onReadBitRequested
    ∧ dec 12#8 5#8 = some .onReadBitReportIdentity ∧ dec 14#8 5#8 = some .onReadBitDiscover
    ∧ dec 16#8 5#8 = some .onReadBitIdleOrResetReceived ∧ dec 18#8 5#8 = some .switchToReadMode
    ∧ dec 20#8 5#8 = some .deferredSwitchToWrite ∧ dec 22#8 5#8 = some .advanceCursor := by decide
theorem test_decode_handler :
    dec 0#8 6#8 = some .rearm ∧ dec 2#8 6#8 = some .resetFinalisation ∧ dec 4#8 6#8 = some .reset
    ∧ dec 6#8 6#8 = some .handlerExit := by decide
theorem test_decode_hw :
    dec 0#8 7#8 = some .setInputMode ∧ dec 2#8 7#8 = some .setDrivenLow ∧ dec 4#8 7#8 = some .readLevel
    ∧ dec 6#8 7#8 = some .timerStart ∧ dec 8#8 7#8 = some .timerStop ∧ dec 10#8 7#8 = some .timerResetToZero
    ∧ dec 12#8 7#8 = some .timerReadTicks ∧ dec 14#8 7#8 = some .timerOverflowIndicator
    ∧ dec 16#8 7#8 = some (.configureFallingEdge .gpio) ∧ dec 17#8 7#8 = some (.configureFallingEdge .comparator)
    ∧ dec 18#8 7#8 = some .clearPendingFlag ∧ dec 20#8 7#8 = some .enableGlobalInterrupts := by decide
/-- Band codes 5 to 7 do not occur (R82); a key has six bits; unused operation numbers are refused. -/
theorem test_decode_refuses :
    dec 0b00000101#8 1#8 = none ∧ dec 0b01000000#8 1#8 = none ∧ dec 1#8 3#8 = none ∧ dec 1#8 5#8 = none
    ∧ dec 8#8 6#8 = none ∧ dec 22#8 7#8 = none ∧ dec 0#8 8#8 = none := by decide
/-- The table's own words (R84, R88). -/
theorem test_decodeTableWord :
    decodeTableWord 8 0x20 = some (.glitch .bandZ) ∧ decodeTableWord 8 0x1C = some (.read0Reset false)
    ∧ decodeTableWord 8 0x33 = some .readIdentity ∧ decodeTableWord 8 0xF0 = some .discover
    ∧ decodeTableWord 8 0x55 = some (.cmdOther 0x55#8) := by decide

/-! ### Parameters: 00_scope R9, 30_encoding R86 -/

/-- The nominal microseconds give REFCFG's thresholds 2, 29, 29, 199, 14, 149. -/
theorem test_nominal_thresholds : withNominalThresholds .reference = Config.reference := by decide
/-- `IDENTITY = {AB, CD, EF, 01, 23, 45, 67, 89}`; byte 0 in bits 7..0 of the port (42_hw_interface R213). -/
theorem test_identity_port : identityPort State.reset.mem = 0x8967452301EFCDAB#64 := by decide
theorem test_address_8_does_not_exist : readByte State.reset.mem 8 = none := by decide

/-! ### Steps -/

/-- What a step that answers a next state leaves, or nothing. -/
def left (o : Host.Outcome State Fault Refusal) (f : State → α) : Option α :=
  match o with
  | .next t => some (f t)
  | .fault _ => none
  | .refused _ => none

/-- The reset state with another session state. -/
def withSession (x : Session) : State := { State.reset with session := x }

/-- The state before a read or write slot, `lowTicks` measured. -/
def slot (x : Session) (lowTicks : Nat) : State := { withSession x with lowTicks := lowTicks }

/-- After READ_IDENTITY (program P1 after pass 9). -/
def reporting : Session :=
  { Session.powerOn with
    commandState := .reportIdentity, expectingRead := true, bitMask := 0x02#8, accumulatedCommand := 0x33#8 }

/-- Before the first triplet (program P2 after pass 9). -/
def discovering : Session :=
  { Session.powerOn with
    commandState := .discover, expectingRead := true, invertNextReadBit := true, accumulatedCommand := 0xF0#8 }

/-- After a Reset that a write slot began (program P1 after pass 1). -/
def receiving : Session := sessionAfterReset false

theorem test_boundary_write_0 : left (step { State.reset with input := [.pulse 28] }) State.events = some [.write1]
    ∧ left (step { State.reset with input := [.pulse 29] }) State.events = some [.write0]
    ∧ left (step { State.reset with input := [.pulse 198] }) State.events = some [.write0]
    ∧ left (step { State.reset with input := [.pulse 199] }) State.events = some [.write0, .reset] := by decide
theorem test_glitch_needs_skip :
    left (step { State.reset with input := [.pulse 1], cfg := { Config.reference with skip := true } }) State.events
      = some [.glitch]
    ∧ left (step { State.reset with input := [.pulse 1] }) State.events = some [.write1] := by decide
/-- Vector T1: WRITE0 then RESET from power-on. -/
theorem test_reset_from_powerOn :
    left (step { State.reset with input := [.pulse 249] }) (fun t => (t.session, t.device.driveLow, t.phase))
      = some (sessionAfterReset false, false, .wait) := by decide
/-- Program P1, pass 2: the first command bit. -/
theorem test_first_command_bit :
    left (exec (.write1BandB false) (slot receiving 7)) State.session
      = some { receiving with pendingBitValue := true, bitMask := 0x02#8, accumulatedCommand := 0x01#8 } := by decide
/-- Program P1, pass 9: the eighth command bit spells 0x33. -/
theorem test_eighth_command_bit :
    left (exec (.write0 false) (slot { receiving with bitMask := 0x80#8, accumulatedCommand := 0x33#8 } 59)) State.session
      = some reporting := by decide
/-- Program P1, pass 11: identity bit 2 of 0xAB is 0, so the next slot is armed. -/
theorem test_read_slot_arms :
    left (exec (.read1 false .bandB) (slot { reporting with bitMask := 0x04#8 } 7)) State.session
      = some { reporting with bitMask := 0x08#8, pendingBitValue := false, read0Armed := true } := by decide
/-- Program P2, passes 10 to 12. -/
theorem test_triplet :
    left (exec (.triplet true) (withSession discovering)) (fun t => (t.events, t.session))
      = some ([.read1, .read0, .write1], { discovering with bitMask := 0x02#8 }) := by decide
/-- Program P2, pass 18: a mismatch at identity bit 2 goes to Idle, the cursor stays. -/
theorem test_mismatch :
    left (exec (.write1BandB false)
      (slot { discovering with expectingRead := false, invertNextReadBit := false, bitMask := 0x04#8 } 7)) State.session
      = some { discovering with
          expectingRead := false, invertNextReadBit := false, bitMask := 0x04#8, commandState := .idle } := by decide
/-- Vector R1RST: READ1 then RESET; PBV is kept. -/
theorem test_read1_reset :
    left (exec (.read1Reset false) (slot reporting 249)) (fun t => (t.events, t.session))
      = some ([.read1, .reset], sessionAfterReset true) := by decide
/-- Part 3: the cursor at the end of byte 0 and of byte 7. -/
theorem test_advance_cursor :
    left (exec .advanceCursor (withSession { reporting with bitMask := 0x80#8 })) State.session
      = some { reporting with bitMask := 0x01#8, byteIndex := 1 }
    ∧ left (exec .advanceCursor (withSession { reporting with bitMask := 0x80#8, byteIndex := 7 })) State.session
      = some { reporting with bitMask := 0x01#8, commandState := .idle } := by decide
/-- Part 3: `onReset()` from Discover with the cursor at (3, 0x10). -/
theorem test_onReset :
    left (exec .onReset (withSession { discovering with
      deferredSwitchToWrite := true, invertNextReadBit := false, pendingBitValue := false, byteIndex := 3,
      bitMask := 0x10#8 })) State.session
      = some { receiving with pendingBitValue := false } := by decide
/-- Part 3: in Discover at (0, 0x04) of 0xAB, the second read returns the complement 1 and sets DSW. -/
theorem test_discover_complement :
    left (exec .onReadBitDiscover (withSession { discovering with bitMask := 0x04#8 }))
        (fun t => (t.retBit, t.session.invertNextReadBit, t.session.deferredSwitchToWrite))
      = some (true, false, true) := by decide
/-- Vectors U5a and U5b: TO set at entry forces RESET after WRITE0, and is inert after WRITE1. -/
theorem test_overflow_at_entry :
    left (exec (.write0 false) (slot { Session.powerOn with timerOverflow := true } 59)) State.events
      = some [.write0, .reset]
    ∧ left (exec (.write1BandB false) (slot { Session.powerOn with timerOverflow := true } 7))
        (fun t => (t.events, t.session.timerOverflow)) = some ([.write1], true) := by decide
/-- 60_exceptions R229: an edge in the tick of the clear wins. -/
theorem test_edge_wins_over_clear :
    (endOfTick false (onDevice (fun d => { d.clearPending with irqPending := true, lineNow := false })
      State.reset)).device.irqPending = true
    ∧ (endOfTick false (onDevice (fun d => { d.clearPending with irqPending := true })
      State.reset)).device.irqPending = false := by decide
/-- Tick level, vector T2g: the line falls in tick 0, the handler's first action is in tick 2 of these three. -/
theorem test_one_tick_pulse :
    (tickList [true, false, false] State.reset).events = [.write1]
    ∧ (tickList [true, false] State.reset).device.irqPending = true := by decide
/-- 70_reset_and_hazards R263: power-on with the line low makes no edge. -/
theorem test_boot_line_low :
    left (step { State.reset with input := [.por true] }) (fun t => (t.device.lineNow, t.device.prevLine))
      = some (false, false)
    ∧ (tick true (boot true State.reset)).device.irqPending = false := by decide
/-- An operation word at the head of the queue is run by the next step. -/
theorem test_step_runs_word :
    left (step (State.reset.withFetchWord 8 0x33)) (fun t => t.session.commandState) = some .reportIdentity
    ∧ left (step (State.reset.withFetchWord 8 0x14)) State.events = some [.read1, .reset] := by decide

/-! ### Witnesses: a concrete input that meets the hypotheses of each statement that has some, clause by clause -/

/-- The reset state at the point of taking an input. -/
def taking (i : Input) : State := { State.reset with input := [i] }

/-- A block at rest in a given mode, about to take a pulse. -/
def takingPulse (er armed skip : Bool) (n : Nat) : State :=
  { State.reset with
    cfg := { Config.reference with skip := skip }
    session := { Session.powerOn with expectingRead := er, read0Armed := armed, pendingBitValue := !armed }
    input := [.pulse n] }

theorem witness_DecodeOfEncodeIsTheOperation :
    (Instr.glitch .bandA).wellFormed 0xF0#8 = true ∧ (Instr.cmdOther 0x34#8).wellFormed 0xF0#8 = true
    ∧ Instr.discover.wellFormed 0x32#8 = true ∧ (Instr.read1 true .bandC).wellFormed 0x33#8 = true := by decide
theorem witness_PulseRowsPartitionTheValidKeys :
    (0b111100#6 : Key).extractLsb' 0 3 < 5#3 ∧ 5#3 ≤ (0b111101#6 : Key).extractLsb' 0 3 := by decide
theorem witness_LowTicksFallInExactlyOneBand :
    configLegal { Config.reference with tW1Min := 1 } = true ∧ configLegal .reference = true
    ∧ bandOf .reference 0 = .bandZ ∧ bandOf .reference 1 = .bandA
    ∧ bandOf .reference 2 = .bandB ∧ bandOf .reference 28 = .bandB ∧ bandOf .reference 29 = .bandC
    ∧ bandOf .reference 198 = .bandC ∧ bandOf .reference 199 = .bandD := by decide
theorem witness_StepRunsTheDecodedWord :
    configLegal (taking (.word [0x33#8, 2#8])).cfg = true
    ∧ decode 0xF0#8 [0x33#8, 2#8] = .ok .readIdentity ∧ Instr.readIdentity.wellFormed 0xF0#8 = true
    ∧ decode 0xF0#8 [0x05#8, 1#8] = .error (.noSuchBand 5#6) ∧ decode 0xF0#8 [] = .error (.length 0) := by decide
theorem witness_StepRunsThePulseRowOfTheTable :
    ∀ er armed skip : Bool, ∀ n ∈ [0, 1, 2, 28, 29, 198, 199],
      configLegal (takingPulse er armed skip n).cfg = true ∧ (takingPulse er armed skip n).input = [.pulse n]
      ∧ (takingPulse er armed skip n).phase = .wait ∧ (takingPulse er armed skip n).device.irqPending = false
      ∧ (takingPulse er armed skip n).device.irqEnable = true ∧ (takingPulse er armed skip n).device.driveLow = false
      ∧ (takingPulse er armed skip n).device.lineNow = true := by decide
theorem witness_StepPassesATickOrPowersOn :
    configLegal State.reset.cfg = true ∧ State.reset.input = [] ∧ (taking (.tick true)).input = [.tick true]
    ∧ (taking (.por false)).input = [.por false] := by decide
theorem witness_PulseWhileBusyPendingOrUnseenIsRefused :
    configLegal Config.reference = true
    ∧ ({ taking (.pulse 7) with phase := .rstPoll } : State).phase ≠ .wait
    ∧ (onDevice (fun d => { d with irqPending := true }) (taking (.pulse 7))).device.irqPending = true
    ∧ (onDevice (fun d => { d with irqEnable := false }) (taking (.pulse 7))).device.irqEnable = false
    ∧ (onDevice Device.setDrivenLow (taking (.pulse 7))).device.driveLow = true
    ∧ (onDevice (fun d => { d with lineNow := false }) (taking (.pulse 7))).device.lineNow = false := by decide
theorem witness_inv : Inv (taking (.pulse 249)) :=
  ⟨⟨by decide, by decide, ⟨0, by decide⟩, by decide⟩, ⟨by decide, by decide, by decide⟩,
    ⟨by decide, by decide, by decide, by decide, by decide⟩⟩
theorem witness_EveryStepKeepsTheStateSound : Sound (taking (.pulse 249)) ∧ ∃ t, step (taking (.pulse 249)) = .next t :=
  ⟨witness_inv.sound, _, rfl⟩
theorem witness_EveryWireStepKeepsTheSessionInvariants :
    Inv (taking (.pulse 249)) ∧ wireOnly (taking (.pulse 249)) = true ∧ ∃ t, step (taking (.pulse 249)) = .next t :=
  ⟨witness_inv, rfl, _, rfl⟩
theorem witness_PowerOnMeetsTheInvariants :
    configLegal { Config.reference with lat := 3, timerBits := 8 } = true
    ∧ Memory.wf [(0, 0x00#8), (1, 0xFF#8), (7, 0x00#8)] = true := by decide
theorem witness_NoStepWritesIdentityOrConfiguration : ∃ t, step (taking (.tick true)) = .next t := ⟨_, rfl⟩
theorem witness_EveryOperationKeepsIdentityConfigurationAndQueue :
    State.reset.device.irqEnable = true ∧ ∃ t, exec .setDrivenLow State.reset = .next t := ⟨rfl, _, rfl⟩
/-- A Timer at a given count, running or not. -/
def counting (running : Bool) (count : Nat) : State :=
  onDevice (fun d => { d with timerRunning := running, tau := count }) State.reset
/-- The last count running; the count before it; the last count stopped. -/
theorem witness_TimerWrapSetsTheOverflowFlag :
    ((counting true 65535).device.timerRunning = true ∧ (counting true 65535).device.tau = 2 ^ 16 - 1
      ∧ (counting true 65535).device.tau < 2 ^ (counting true 65535).cfg.timerBits)
    ∧ ¬ ((counting true 65534).device.timerRunning = true ∧ (counting true 65534).device.tau = 2 ^ 16 - 1)
    ∧ ¬ ((counting false 65535).device.timerRunning = true ∧ (counting false 65535).device.tau = 2 ^ 16 - 1) := by
  decide
theorem witness_OnWriteBitDependsOnCommandState :
    (withSession receiving).session.commandState = .resetReceived
    ∧ (withSession discovering).session.commandState = .discover
    ∧ State.reset.session.commandState = .idle ∧ (withSession reporting).session.commandState = .reportIdentity := by
  decide
/-- The session before the eighth command bit. -/
def lastBit (acc : Byte) : Session := { receiving with bitMask := 0x80#8, accumulatedCommand := acc }
/-- A mask in the middle of the byte; the eighth bit of 0x33 (a 0), of 0xF0 (a 1) and of 0x55 (a 0). -/
theorem witness_CommandBitIsAccumulated :
    receiving.bitMask ≠ 0x80#8
    ∧ ((lastBit 0x33#8).bitMask = 0x80#8 ∧ (lastBit 0x33#8).accumulatedCommand = 0x33#8)
    ∧ ((lastBit 0x70#8).accumulatedCommand ||| (lastBit 0x70#8).bitMask) = Config.reference.cmdDiscover
    ∧ ((lastBit 0x55#8).accumulatedCommand ≠ 0x33#8
      ∧ (lastBit 0x55#8).accumulatedCommand ≠ Config.reference.cmdDiscover) := by decide
/-- Identity bit 0 of 0xAB is 1: a 1 matches, a 0 does not. -/
theorem witness_DiscoverWriteComparesWithTheTrueBit :
    (true = decide (identityByte [] discovering.byteIndex &&& discovering.bitMask ≠ 0x00#8))
    ∧ false ≠ decide (identityByte [] discovering.byteIndex &&& discovering.bitMask ≠ 0x00#8) := by decide
theorem witness_OnReadBitRequestedDependsOnCommandState :
    reporting.commandState = .reportIdentity ∧ discovering.commandState = .discover
    ∧ Session.powerOn.commandState = .idle ∧ receiving.commandState = .resetReceived := by decide
theorem witness_DiscoverAlternatesTrueAndComplement :
    discovering.invertNextReadBit = true
    ∧ ({ discovering with invertNextReadBit := false } : Session).invertNextReadBit = false := by decide
/-- The cursor before the end of a byte, at the end of byte 6, at the end of byte 7. -/
theorem witness_AdvanceCursorMovesOneBit :
    reporting.bitMask ≠ 0x80#8
    ∧ (({ reporting with bitMask := 0x80#8, byteIndex := 6 } : Session).bitMask = 0x80#8
      ∧ ({ reporting with bitMask := 0x80#8, byteIndex := 6 } : Session).byteIndex ≠ 7)
    ∧ ({ reporting with bitMask := 0x80#8, byteIndex := 7 } : Session).byteIndex = 7 := by decide
theorem witness_CursorWalksTheSixtyFourBits :
    discovering.byteIndex = 0 ∧ discovering.bitMask = 0x01#8 := by decide
theorem witness_RearmSwitchesOrPreparesTheNextBit :
    discovering.deferredSwitchToWrite = false
    ∧ ({ discovering with deferredSwitchToWrite := true } : Session).deferredSwitchToWrite = true := by decide
/-- Without PR; with PR: TO set, the Timer at T_RSTMIN, and one tick before it with the line high and low. -/
def finalising (overflow high : Bool) (count : Nat) : State :=
  onDevice (fun d => { d with tau := count, lineNow := high })
    (withSession { receiving with possibleReset := true, timerOverflow := overflow })
theorem witness_ResetFinalisationPollsTimerThenLine :
    State.reset.session.possibleReset = false
    ∧ ((finalising true true 0).session.possibleReset = true ∧ (finalising true true 0).session.timerOverflow = true)
    ∧ Config.reference.tRstMin ≤ (finalising false true 199).device.tau
    ∧ ((finalising false true 198).session.timerOverflow = false
      ∧ (finalising false true 198).device.tau < Config.reference.tRstMin
      ∧ (finalising false true 198).device.lineNow = true)
    ∧ (finalising false false 198).device.lineNow = false := by decide
theorem witness_ResetRunsUpToItsFirstWait :
    configLegal State.reset.cfg = true ∧ State.reset.device.lineNow = true
    ∧ (finalising false false 199).device.lineNow = false ∧ configLegal (finalising false false 199).cfg = true := by
  decide
theorem witness_WriteOneDeliversTheBit :
    (receiving.possibleReset && receiving.timerOverflow) = false
    ∧ (({ receiving with possibleReset := true, timerOverflow := true } : Session).possibleReset
      && ({ receiving with possibleReset := true, timerOverflow := true } : Session).timerOverflow) = true := by decide
/-! TO clear and TO set at entry. -/

theorem witness_WriteZeroDeliversTheBitOrResets :
    (slot receiving 59).session.timerOverflow = false
    ∧ (slot { receiving with timerOverflow := true } 59).session.timerOverflow = true := by decide
theorem witness_ReadOneRearmsOrResets :
    (slot reporting 59).session.timerOverflow = false
    ∧ (slot { reporting with timerOverflow := true } 59).session.timerOverflow = true := by decide
theorem witness_ReadZeroRearmsOrResets :
    (slot { reporting with pendingBitValue := false, read0Armed := true } 59).session.timerOverflow = false
    ∧ (slot { reporting with pendingBitValue := false, read0Armed := true, timerOverflow := true } 59).session.timerOverflow = true := by decide
/-- The low time of a slot at a boundary of its range: for a 1 the shortest, for a 0 the longest. -/
def boundarySlot (skip bit : Bool) : Nat := if bit then (if skip then 2 else 0) else 198
theorem witness_EightWriteSlotsSpellTheCommand :
    pulseAccepted (withSession receiving) = true
    ∧ receiving.timerOverflow = false ∧ receiving.possibleReset = false ∧ receiving.commandState = .resetReceived
    ∧ receiving.expectingRead = false ∧ receiving.read0Armed = false ∧ receiving.byteIndex = 0
    ∧ receiving.bitMask = 0x01#8 ∧ receiving.accumulatedCommand = 0x00#8
    ∧ ∀ skip : Bool, configLegal { Config.reference with skip := skip } = true
      ∧ ∀ c ∈ ([0x33#8, 0xF0#8, 0x55#8] : List Byte), ∀ i < 8,
        if c.getLsbD i then (skip = true → Config.reference.tW1Min ≤ boundarySlot skip (c.getLsbD i))
          ∧ boundarySlot skip (c.getLsbD i) < Config.reference.tW0Min
        else Config.reference.tW0Min ≤ boundarySlot skip (c.getLsbD i)
          ∧ boundarySlot skip (c.getLsbD i) < Config.reference.tRstMin := by decide
theorem witness_SixtyFourReadSlotsReportTheIdentity :
    reporting.commandState = .reportIdentity ∧ reporting.expectingRead = true
    ∧ reporting.deferredSwitchToWrite = false ∧ reporting.timerOverflow = false ∧ reporting.byteIndex = 0
    ∧ reporting.bitMask = 0x02#8 ∧ reporting.pendingBitValue = identityBit State.reset.mem 0
    ∧ reporting.read0Armed = !reporting.pendingBitValue := by decide
/-- Before the first triplet and before the last (identity bit 63 is 1). -/
def beforeTriplet (n : Fin 64) : Session :=
  { discovering with
    byteIndex := ⟨n.val / 8, by omega⟩
    bitMask := 0x01#8 <<< (n.val % 8)
    pendingBitValue := identityBit [] n.val
    read0Armed := !(identityBit [] n.val) }
theorem witness_TripletTransfersOneIdentityBit :
    ∀ n ∈ [(0 : Fin 64), 2, 62, 63],
      (beforeTriplet n).commandState = .discover ∧ (beforeTriplet n).expectingRead = true
      ∧ (beforeTriplet n).deferredSwitchToWrite = false ∧ (beforeTriplet n).invertNextReadBit = true
      ∧ (beforeTriplet n).timerOverflow = false ∧ (beforeTriplet n).byteIndex.val = n.val / 8
      ∧ (beforeTriplet n).bitMask = 0x01#8 <<< (n.val % 8)
      ∧ (beforeTriplet n).pendingBitValue = identityBit State.reset.mem n.val
      ∧ (beforeTriplet n).read0Armed = !(beforeTriplet n).pendingBitValue := by decide
theorem witness_DiscoverRoundTripReturnsToIdle :
    configLegal (withSession discovering).cfg = true ∧ discovering.commandState = .discover
    ∧ discovering.expectingRead = true ∧ discovering.deferredSwitchToWrite = false
    ∧ discovering.invertNextReadBit = true ∧ discovering.timerOverflow = false ∧ discovering.byteIndex = 0
    ∧ discovering.bitMask = 0x01#8 ∧ discovering.pendingBitValue = identityBit State.reset.mem 0
    ∧ discovering.read0Armed = !discovering.pendingBitValue := by decide
theorem witness_TickLevelRealisesTheEventLevel :
    configLegal State.reset.cfg = true ∧ State.reset.cfg.tR0Ext + 1 < State.reset.cfg.tRstMin
    ∧ pulseAccepted (withSession { reporting with read0Armed := true }) = true
    ∧ State.reset.device.timerRunning = false ∧ reporting.possibleReset = false ∧ reporting.timerOverflow = false
    ∧ State.reset.input = [] := by decide
theorem witness_QuietTickTouchesNoSessionState :
    State.reset.phase = .wait ∧ State.reset.device.irqPending = false
    ∧ (onDevice (fun d => { d with irqPending := true, irqEnable := false }) State.reset).device.irqEnable = false
    ∧ State.reset.device.timerRunning = false := by decide
theorem witness_RunningHandlerIgnoresThePendingFlag :
    ({ State.reset with phase := .wPoll } : State).phase ≠ .wait := by decide
/-- An armed block in the tick of a falling edge. -/
def armedAtEdge (skip : Bool) : State :=
  { State.reset with
    cfg := { Config.reference with skip := skip, tR0Ext := 2 }
    session := { reporting with pendingBitValue := false, read0Armed := true }
    device := { Device.powerOn true with prevLine := true } }
theorem witness_ReadZeroHoldIsTimedFromTheEdge :
    ∀ skip : Bool, ∀ lows ∈ [[], [true], [true, false], [true, false, true, false]],
      configLegal (armedAtEdge skip).cfg = true ∧ (armedAtEdge skip).phase = .wait
      ∧ (armedAtEdge skip).session.read0Armed = true ∧ (armedAtEdge skip).device.irqPending = false
      ∧ (armedAtEdge skip).device.irqEnable = true ∧ (armedAtEdge skip).device.driveLow = false
      ∧ (armedAtEdge skip).device.timerRunning = false ∧ (armedAtEdge skip).device.prevLine = true
      ∧ (armedAtEdge skip).device.lineNow = false
      ∧ ((armedAtEdge skip).cfg.skip = true → ∀ m ∈ lows.take (armedAtEdge skip).cfg.lat, m = true)
      ∧ lows.length ≤ (armedAtEdge skip).cfg.lat + (armedAtEdge skip).cfg.tR0Ext + 1 := by decide
/-- The block in P_RELWAIT with the line released or still low, with short intervals. -/
def waitingRelease (high : Bool) (presence : Nat) : State :=
  { State.reset with
    cfg := { Config.reference with tIdle := 1, tPres := presence }
    session := receiving
    device := { Device.powerOn (!high) with timerRunning := true }
    phase := .relWait }
/-- A presence pulse of two ticks and of one, each up to the tick after the return. -/
theorem witness_PresencePulseIsTimedFromTheRelease :
    ∀ p ∈ [(2, [false, true, false, false]), (1, [false, false, false])],
      configLegal (waitingRelease true p.1).cfg = true ∧ (waitingRelease true p.1).phase = .relWait
      ∧ (waitingRelease true p.1).device.lineNow = true ∧ (waitingRelease true p.1).device.driveLow = false
      ∧ (waitingRelease true p.1).device.timerRunning = true
      ∧ p.2.length = (waitingRelease true p.1).cfg.tIdle + (waitingRelease true p.1).cfg.tPres + 1 := by
  decide
/-- By R229: the presence pulse of one tick leaves the pending flag set (assumption 14). -/
theorem test_one_tick_presence_pends :
    (tickList [false, false, false] (waitingRelease true 1)).device.irqPending = true
    ∧ (tickList [false, false, false, false] (waitingRelease true 2)).device.irqPending = false := by decide
theorem witness_StuckLowLineKeepsTheReleaseWait :
    (waitingRelease false 2).phase = .relWait ∧ (waitingRelease false 2).device.lineNow = false
    ∧ (waitingRelease false 2).device.driveLow = false := by decide
/-- An armed block with an edge pending: at entry with LAT = 1 and LAT = 3, and in P_LAT before and at the first action. -/
def armedPending (lat count : Nat) (phase : Phase) (strobe : Bool) : State :=
  { State.reset with
    cfg := { Config.reference with lat := lat, debugStrobe := strobe }
    session := { reporting with pendingBitValue := false, read0Armed := true }
    device := { Device.powerOn true with irqPending := true }
    phase := phase
    latCount := count }
theorem witness_InterruptEntryClearsThePendingFlag :
    (∀ lat ∈ [1, 2, 3], configLegal (armedPending lat 0 .wait false).cfg = true
      ∧ (armedPending lat 0 .wait false).phase = .wait
      ∧ (armedPending lat 0 .wait false).device.irqPending = true
      ∧ (armedPending lat 0 .wait false).device.irqEnable = true)
    ∧ (armedPending 3 0 .lat false).phase = .lat ∧ configLegal (armedPending 3 0 .lat false).cfg = true
    ∧ (armedPending 3 0 .lat false).latCount + 2 < (armedPending 3 0 .lat false).cfg.lat
    ∧ (armedPending 3 1 .lat false).cfg.lat ≤ (armedPending 3 1 .lat false).latCount + 2 := by decide
/-- With DEBUG_STROBE set, the tick of the first action sets the strobe and the driver; with it clear, the driver alone. -/
theorem witness_DebugStrobeMarksTheFastPathAssertion :
    configLegal (armedPending 1 0 .wait true).cfg = true
    ∧ (tick true (armedPending 1 0 .wait true)).device.debugStrobe = true
    ∧ (tick true (tick true (armedPending 1 0 .wait true))).device.debugStrobe = false
    ∧ (tick true (armedPending 1 0 .wait false)).device.debugStrobe = false
    ∧ (tick true (armedPending 1 0 .wait false)).device.driveLow = true := by decide

end Sys2Proof.Tests
end

/-! PROOF. The step: what an operation word runs and which configurations are refused (00_scope R5, R8). -/
section

namespace Sys2Proof.Machine

/-! ### The refusals of a step -/

/-- Every arm of the dispatch answers a next state. -/
theorem exec_next (i : Instr) (s : State) : ∃ t, exec i s = .next t := by
  cases i <;> exact ⟨_, rfl⟩

theorem runBytes_of_decode {bytes : List Byte} {i : Instr} {s : State}
    (h : decode s.cfg.cmdDiscover bytes = .ok i) : runBytes bytes s = exec i s := by
  simp only [runBytes, h]

theorem runBytes_of_error {bytes : List Byte} {e : DecodeError} {s : State}
    (h : decode s.cfg.cmdDiscover bytes = .error e) : runBytes bytes s = .refused (.undecodable e) := by
  simp only [runBytes, h]

/-- An operation word is refused for its bytes alone. -/
theorem runBytes_ne_illegalConfiguration (bytes : List Byte) (s : State) :
    runBytes bytes s ≠ .refused .illegalConfiguration := by
  cases h : decode s.cfg.cmdDiscover bytes with
  | ok i =>
    obtain ⟨t, ht⟩ := exec_next i s
    rw [runBytes_of_decode h, ht]
    exact nofun
  | error e =>
    rw [runBytes_of_error h]
    exact nofun

theorem step_of_illegal {s : State} (h : configLegal s.cfg = false) : step s = .refused .illegalConfiguration :=
  if_neg (by rw [h]; decide)

theorem step_word {s : State} {bytes : List Byte} {rest : List Input} (hc : configLegal s.cfg = true)
    (hi : s.input = .word bytes :: rest) : step s = runBytes bytes { s with input := rest } := by
  simp only [step, hc, hi, if_true]

theorem step_pulse_accepted {s : State} {n : Nat} {rest : List Input} (hc : configLegal s.cfg = true)
    (hi : s.input = .pulse n :: rest) (ha : pulseAccepted s = true) :
    step s = runBytes (pulseBytes n s) { s with lowTicks := n, input := rest } := by
  simp only [step, hc, hi, ha, if_true]

/-- With a legal configuration no kind of step answers that refusal. -/
theorem step_ne_illegalConfiguration {s : State} (hc : configLegal s.cfg = true) :
    step s ≠ .refused .illegalConfiguration := by
  unfold step
  rw [if_pos hc]
  split
  next => exact nofun
  next => exact nofun
  next =>
    split
    · exact runBytes_ne_illegalConfiguration _ _
    · exact nofun
  next => exact runBytes_ne_illegalConfiguration _ _
  next => exact nofun

/-! ### The constraints of 00_scope R8 -/

/-- The check is the conjunction of the constraints. -/
theorem configLegal_iff (c : Config) :
    configLegal c = true ↔
      1 ≤ c.lat
        ∧ 1 ≤ c.tW1Min ∧ c.tW1Min < c.tW0Min ∧ c.tW0Min < c.tRstMin
        ∧ c.tRstMin < 2 ^ c.timerBits
        ∧ 1 ≤ c.tR0Ext ∧ c.tR0Ext < c.tRstMin
        ∧ 1 ≤ c.tIdle ∧ c.tIdle < 2 ^ c.timerBits
        ∧ 1 ≤ c.tPres ∧ c.tPres < 2 ^ c.timerBits
        ∧ c.cmdDiscover ≠ 0x33#8 := by
  simp only [configLegal, Bool.and_eq_true, decide_eq_true_eq, bne_iff_ne, cmdReadIdentity, and_assoc]

/-! ### The obligations -/

/-- Settles O8: an illegal configuration is refused before the input is looked at, and a legal one never is. -/
theorem illegalConfigurationIsRefused : Obligations.IllegalConfigurationIsRefused := by
  intro s
  rw [← configLegal_iff, Bool.not_eq_true]
  refine ⟨fun h => ?_, step_of_illegal⟩
  cases hc : configLegal s.cfg with
  | false => rfl
  | true => exact absurd h (step_ne_illegalConfiguration hc)

/-- Settles O5, by the two outcomes of the decoder. -/
theorem stepRunsTheDecodedWord : Obligations.StepRunsTheDecodedWord := by
  intro s bytes rest hc hi
  rw [step_word hc hi]
  exact ⟨fun i hd _ => runBytes_of_decode hd, fun e he => runBytes_of_error he⟩

end Sys2Proof.Machine
end

/-! PROOF. The two levels agree (00_scope R10, 40_pulse_classifier R130): the state in the middle of a pass, the ticks
of each wait, and the tail of every pass. -/
section

namespace Sys2Proof.Machine

open Sys2Proof.Safety

/-! ### Sequences of ticks -/

theorem tickList_append (l r : List Bool) (s : State) : tickList (l ++ r) s = tickList r (tickList l s) := by
  induction l generalizing s with
  | nil => rfl
  | cons low l ih => exact ih (tick low s)

/-- The master's drive in the `n` ticks from tick `c` after the first action, for a pulse of `lowTicks` ticks. -/
def masterDrive (lowTicks c n : Nat) : List Bool := (List.range' c n).map fun k => decide (k < lowTicks)

theorem masterDrive_append (lowTicks c m n : Nat) :
    masterDrive lowTicks c (m + n) = masterDrive lowTicks c m ++ masterDrive lowTicks (c + m) n := by
  rw [masterDrive, masterDrive, masterDrive, ← List.map_append, List.range'_append_1]

theorem masterDrive_succ (lowTicks c n : Nat) :
    masterDrive lowTicks c (n + 1) = decide (c < lowTicks) :: masterDrive lowTicks (c + 1) n := rfl

theorem masterDrive_ne_nil {lowTicks c n : Nat} (h : 0 < n) : masterDrive lowTicks c n ≠ [] := by
  obtain ⟨k, rfl⟩ := Nat.exists_eq_succ_of_ne_zero (Nat.ne_of_gt h)
  exact List.cons_ne_nil _ _

theorem masterDrive_low {lowTicks c n : Nat} (h : c + n ≤ lowTicks) :
    masterDrive lowTicks c n = List.replicate n true := by
  simp only [masterDrive, List.eq_replicate_iff, List.length_map, List.length_range', List.mem_map, List.mem_range'_1,
    true_and]
  rintro b ⟨k, ⟨_, hk⟩, rfl⟩
  exact decide_eq_true (by omega)

theorem masterDrive_released {lowTicks c n : Nat} (h : lowTicks ≤ c) :
    masterDrive lowTicks c n = List.replicate n false := by
  simp only [masterDrive, List.eq_replicate_iff, List.length_map, List.length_range', List.mem_map, List.mem_range'_1,
    true_and]
  rintro b ⟨k, ⟨hk, _⟩, rfl⟩
  exact decide_eq_false (by omega)

/-- The waveform of a pulse, by ticks: the latency, then the drive as the handler sees it. -/
theorem pulseWaveform_eq {s : State} {lowTicks : Nat} (h : lowTicks ≤ returnAfter s lowTicks) :
    pulseWaveform s lowTicks =
      List.replicate s.cfg.lat true ++ masterDrive lowTicks 0 (returnAfter s lowTicks + 2) := by
  have hn : returnAfter s lowTicks + 2 = lowTicks + (returnAfter s lowTicks - lowTicks + 2) := by omega
  rw [hn, masterDrive_append, masterDrive_low (by omega), masterDrive_released (by omega), pulseWaveform,
    List.replicate_add, List.append_assoc]

/-- Ticks along a trajectory: `f k` is the state in tick `k` after the first action. -/
theorem tickList_trajectory {f : Nat → State} {lowTicks c n : Nat}
    (h : ∀ k, c ≤ k → k < c + n → tick (decide (k + 1 < lowTicks)) (f k) = f (k + 1)) :
    tickList (masterDrive lowTicks (c + 1) n) (f c) = f (c + n) := by
  induction n generalizing c with
  | zero => rfl
  | succ n ih =>
    rw [masterDrive_succ, tickList, h c le_rfl (by omega), ih fun k hk hkn => h k (by omega) (by omega)]
    congr 1
    omega

/-- Ticks along a trajectory, the master released. -/
theorem tickList_released {f : Nat → State} {c n : Nat}
    (h : ∀ k, c ≤ k → k < c + n → tick false (f k) = f (k + 1)) :
    tickList (List.replicate n false) (f c) = f (c + n) := by
  rw [← masterDrive_released (Nat.zero_le (c + 1))]
  exact tickList_trajectory h

/-- Two states that a tick takes to the same state. -/
theorem tickList_congr {l : List Bool} {s t : State} (h : ∀ low, tick low s = tick low t) (hl : l ≠ []) :
    tickList l s = tickList l t := by
  cases l with
  | nil => exact absurd rfl hl
  | cons low l => rw [tickList, tickList, h low]

/-! ### The state in the middle of a pass -/

/-- What changes during a pass: the handler's position, the session state, the events, and the device state but for the
Timer's running, which every tick of a pass has set, and the interrupt enable. -/
structure PassState where
  phase : Phase
  session : Session
  events : List BusEvent
  drive : Bool
  pending : Bool
  clear : Bool
  prev : Bool
  high : Bool
  strobe : Bool
  count : Nat

/-- A pass that began in state `s` and stands at `w`. -/
def midPass (s : State) (w : PassState) : State :=
  { s with
    session := w.session
    device :=
      { driveLow := w.drive
        tau := w.count
        timerRunning := true
        irqPending := w.pending
        irqEnable := s.device.irqEnable
        prevLine := w.prev
        lineNow := w.high
        clearNow := w.clear
        debugStrobe := w.strobe }
    phase := w.phase
    latCount := 0
    events := w.events }

/-- What the end of a tick makes of it, but for the Timer's wrap (10_state R21, R22, R36). -/
def PassState.next (low : Bool) (w : PassState) : PassState :=
  { w with
    pending := (w.pending && !w.clear) || (w.prev && !w.high)
    clear := false
    prev := w.high
    high := wiredAnd low w.drive
    count := w.count + 1 }

section MidPass

variable {s : State} {w v : PassState} {low : Bool}

/-- The end of a tick, with the Timer's wrap. -/
theorem endOfTick_midPass_wrap :
    endOfTick low (midPass s w) = midPass s { w.next low with
      session := { w.session with
        timerOverflow := w.session.timerOverflow || decide (2 ^ s.cfg.timerBits ≤ w.count + 1) }
      count := (w.count + 1) % 2 ^ s.cfg.timerBits } := rfl

theorem endOfTick_midPass (h : w.count + 1 < 2 ^ s.cfg.timerBits) :
    endOfTick low (midPass s w) = midPass s (w.next low) := by
  rw [endOfTick_midPass_wrap, Nat.mod_eq_of_lt h, decide_eq_false (Nat.not_le_of_lt h), Bool.or_false]
  rfl

/-- A tick in which the handler goes from `w` to `v`. -/
theorem tick_midPass (h : handlerTick (midPass s { w with strobe := false }) = midPass s v)
    (hc : v.count + 1 < 2 ^ s.cfg.timerBits) : tick low (midPass s w) = midPass s (v.next low) := by
  show endOfTick low (handlerTick (midPass s { w with strobe := false })) = _
  rw [h, endOfTick_midPass hc]

/-- The return tick: the Timer stops, and its count stays. -/
theorem endOfTick_returnFromInterrupt :
    endOfTick low (returnFromInterrupt (midPass s w)) =
      { s with
        session := w.session
        device :=
          { driveLow := w.drive
            tau := w.count
            timerRunning := false
            irqPending := (w.next low).pending
            irqEnable := s.device.irqEnable
            prevLine := w.high
            lineNow := wiredAnd low w.drive
            clearNow := false
            debugStrobe := w.strobe }
        phase := .wait
        latCount := 0
        events := w.events } := by
  have hx : { w.session with timerOverflow := w.session.timerOverflow || false } = w.session := by
    rw [Bool.or_false]
  exact congrArg (fun x => { endOfTick low (returnFromInterrupt (midPass s w)) with session := x }) hx

/-- The return tick of a pass without RESET, in which the line is high (40_pulse_classifier R129). -/
theorem endOfTick_return_high (hd : w.drive = false) (hh : w.high = true) (hs : w.strobe = false)
    (hc : w.count < 2 ^ s.cfg.timerBits) :
    endOfTick false (returnFromInterrupt (midPass s w)) =
      afterPass s false (w.pending && !w.clear) w.count w.events w.session := by
  simp [endOfTick_returnFromInterrupt, afterPass, PassState.next, wiredAnd, hd, hh, hs, Nat.mod_eq_of_lt hc]

end MidPass

/-! ### Polls with the line driver released -/

/-- A poll in tick `c` after the first action, the slave driving nothing: the line is low until the pulse is over. -/
def PassState.polling (p : Phase) (x : Session) (events : List BusEvent) (pending : Bool) (lowTicks c : Nat) :
    PassState where
  phase := p
  session := x
  events := events
  drive := false
  pending := pending
  clear := false
  prev := false
  high := !decide (c < lowTicks)
  strobe := false
  count := c

/-- The end of a tick in which the line is low. -/
theorem polling_next {p : Phase} {x : Session} {events : List BusEvent} {pending : Bool} {lowTicks c : Nat}
    (h : c < lowTicks) :
    (PassState.polling p x events pending lowTicks c).next (decide (c + 1 < lowTicks)) =
      .polling p x events pending lowTicks (c + 1) := by
  simp [PassState.polling, PassState.next, wiredAnd, h]

/-- A poll that waits while the line is low. -/
theorem tickList_polling {s : State} {p : Phase} {x : Session} {events : List BusEvent} {pending : Bool}
    {lowTicks c n : Nat} (hb : c + n < 2 ^ s.cfg.timerBits) (hl : n = 0 ∨ c + n ≤ lowTicks)
    (hw : ∀ k, k < c + n → k < lowTicks →
      handlerTick (midPass s (.polling p x events pending lowTicks k)) =
        midPass s (.polling p x events pending lowTicks k)) :
    tickList (masterDrive lowTicks (c + 1) n) (midPass s (.polling p x events pending lowTicks c)) =
      midPass s (.polling p x events pending lowTicks (c + n)) := by
  refine tickList_trajectory (f := fun k => midPass s (.polling p x events pending lowTicks k)) fun k hk hkn => ?_
  have hlow : k < lowTicks := by omega
  have hc : k + 1 < 2 ^ s.cfg.timerBits := by omega
  rw [tick_midPass (hw k hkn hlow) hc, polling_next hlow]

theorem lineNow_polling_high {s : State} {p : Phase} {x : Session} {events : List BusEvent} {pending : Bool}
    {lowTicks c : Nat} (h : lowTicks ≤ c) :
    (midPass s (.polling p x events pending lowTicks c)).device.lineNow = true := by
  simp [midPass, PassState.polling, h]

theorem lineNow_polling_low {s : State} {p : Phase} {x : Session} {events : List BusEvent} {pending : Bool}
    {lowTicks c : Nat} (h : c < lowTicks) :
    (midPass s (.polling p x events pending lowTicks c)).device.lineNow = false := by
  simp [midPass, PassState.polling, h]

/-- The return tick of a pass without RESET that drives nothing. -/
theorem endOfTick_return_polling {s : State} {p : Phase} {x : Session} {events : List BusEvent} {pending : Bool}
    {lowTicks c : Nat} (hl : lowTicks ≤ c) (hc : c < 2 ^ s.cfg.timerBits) :
    endOfTick false (returnFromInterrupt (midPass s (.polling p x events pending lowTicks c))) =
      afterPass s false pending c events x := by
  rw [endOfTick_return_high rfl (lineNow_polling_high (s := s) (p := p) (x := x) (events := events) (pending := pending)
    hl) rfl hc]
  simp [PassState.polling]

/-! ### Reset finalisation at tick level -/

theorem finalisationPoll_reset {released : State → State} {s : State} (hc : s.cfg.tRstMin ≤ s.device.tau) :
    finalisationPoll released s = resetSequence (onSession (fun x => { x with possibleReset := false }) s) := by
  simp [finalisationPoll, ticks, hc]

theorem finalisationPoll_released {released : State → State} {s : State} (ho : s.session.timerOverflow = false)
    (hc : s.device.tau < s.cfg.tRstMin) (hl : s.device.lineNow = true) :
    finalisationPoll released s = released (onSession (fun x => { x with possibleReset := false }) s) := by
  simp [finalisationPoll, ticks, line, ho, hl, Nat.not_le_of_lt hc]

theorem finalisationPoll_waits {released : State → State} {s : State} (ho : s.session.timerOverflow = false)
    (hc : s.device.tau < s.cfg.tRstMin) (hl : s.device.lineNow = false) :
    finalisationPoll released s = waitIn .rstPoll s := by
  simp [finalisationPoll, ticks, line, ho, hl, Nat.not_le_of_lt hc]

section Finalisation

variable {s : State} {x : Session} {events : List BusEvent} {pending : Bool} {lowTicks c : Nat}

/-- The poll of R127 waits below the threshold while the line is low. -/
theorem handlerTick_rstPoll_waits (ho : x.timerOverflow = false) (hc : c < s.cfg.tRstMin) (hl : c < lowTicks) :
    handlerTick (midPass s (.polling .rstPoll x events pending lowTicks c)) =
      midPass s (.polling .rstPoll x events pending lowTicks c) :=
  finalisationPoll_waits ho hc (lineNow_polling_low hl)

/-- A pass whose pulse is over before the threshold returns in the first tick in which the line is high. -/
theorem tickList_finalisation_released (ho : x.timerOverflow = false) (hb : s.cfg.tRstMin < 2 ^ s.cfg.timerBits)
    (hc : c < s.cfg.tRstMin) (hl : lowTicks < s.cfg.tRstMin) :
    tickList (masterDrive lowTicks (c + 1) (max lowTicks c - c + 1))
        (midPass s (.polling .rstPoll x events pending lowTicks c)) =
      afterPass s false pending (max lowTicks c) events (passEnd x) := by
  have hcount : c + (max lowTicks c - c) = max lowTicks c := by omega
  have hreturn : handlerTick (midPass s (.polling .rstPoll x events pending lowTicks (max lowTicks c))) =
      returnFromInterrupt (midPass s (.polling .rstPoll (passEnd x) events pending lowTicks (max lowTicks c))) :=
    finalisationPoll_released ho (max_lt hl hc) (lineNow_polling_high (le_max_left _ _))
  rw [masterDrive_append, tickList_append, tickList_polling (by omega) (by omega)
    fun k hk hlow => handlerTick_rstPoll_waits ho (by omega) hlow, hcount, masterDrive_released (by omega)]
  show endOfTick false (handlerTick (midPass s _)) = _
  rw [hreturn, endOfTick_return_polling (le_max_left _ _) (by omega)]

/-- The session state in which RESET waits for the release (R127, R161). -/
def resetReceived (x : Session) : Session := { x with possibleReset := false }.onReset

theorem releasePoll_phase (p : Phase) (t : State) : releasePoll { t with phase := p } = releasePoll t := rfl

theorem releasePoll_midPass_phase (p : Phase) (w : PassState) :
    releasePoll (midPass s { w with phase := p }) = releasePoll (midPass s w) :=
  releasePoll_phase p (midPass s w)

/-- At the threshold RESET begins, in the same tick and whatever the line. -/
theorem handlerTick_rstPoll_threshold :
    handlerTick (midPass s (.polling .rstPoll x events pending lowTicks s.cfg.tRstMin)) =
      handlerTick (midPass s
        (.polling .relWait (resetReceived x) (events ++ [.reset]) pending lowTicks s.cfg.tRstMin)) := by
  have hreset : handlerTick (midPass s (.polling .rstPoll x events pending lowTicks s.cfg.tRstMin)) =
      resetSequence (onSession (fun y => { y with possibleReset := false })
        (midPass s (.polling .rstPoll x events pending lowTicks s.cfg.tRstMin))) := finalisationPoll_reset le_rfl
  have hstart : engineReset (emit .reset (onSession (fun y => { y with possibleReset := false })
        (midPass s (.polling .rstPoll x events pending lowTicks s.cfg.tRstMin)))) =
      midPass s { PassState.polling .relWait (resetReceived x) (events ++ [.reset]) pending lowTicks
        s.cfg.tRstMin with phase := .rstPoll } := rfl
  rw [hreset, resetSequence, hstart, releasePoll_midPass_phase]
  rfl

end Finalisation

/-! ### The Reset sequence at tick level -/

/-- The wait for the release in tick `c` after the first action; the Timer, which has no part in it, stands at
`count`. -/
def PassState.releaseWaiting (x : Session) (events : List BusEvent) (pending : Bool) (lowTicks c count : Nat) :
    PassState :=
  { PassState.polling .relWait x events pending lowTicks c with count := count }

/-- The post-reset idle interval, `k` ticks after the release. -/
def PassState.idling (x : Session) (events : List BusEvent) (pending : Bool) (k : Nat) : PassState where
  phase := .idleHold
  session := x
  events := events
  drive := false
  pending := pending
  clear := false
  prev := true
  high := true
  strobe := false
  count := k

/-- The presence pulse, `k` ticks after its assertion: the falling edge is seen at the end of the first tick in
which the line is low. -/
def PassState.presenting (x : Session) (events : List BusEvent) (pending : Bool) (k : Nat) : PassState where
  phase := .presence
  session := x
  events := events
  drive := true
  pending := pending || decide (2 ≤ k)
  clear := false
  prev := decide (k ≤ 1)
  high := false
  strobe := false
  count := k

/-- The falling edge of the slave's own assertion has been latched, or shows in this tick. -/
theorem edge_seen_or_now (k : Nat) : (decide (2 ≤ k) || decide (k ≤ 1)) = true := by
  rw [Bool.or_eq_true, decide_eq_true_eq, decide_eq_true_eq]
  omega

section ResetSequence

variable {s : State} {x : Session} {events : List BusEvent} {pending : Bool} {lowTicks c count k : Nat}

/-- While the line is low the wait goes on; the Timer may wrap and set TO (70_reset_and_hazards R277). -/
theorem tickList_releaseWaiting {n : Nat} (hl : c + n ≤ lowTicks) :
    ∃ overflow count', tickList (masterDrive lowTicks (c + 1) n)
        (midPass s (.releaseWaiting x events pending lowTicks c count)) =
      midPass s (.releaseWaiting { x with timerOverflow := overflow } events pending lowTicks (c + n) count') := by
  induction n generalizing x c count with
  | zero => exact ⟨x.timerOverflow, count, rfl⟩
  | succ n ih =>
    have hc : c < lowTicks := by omega
    have hwait : handlerTick (midPass s (.releaseWaiting x events pending lowTicks c count)) =
        midPass s (.releaseWaiting x events pending lowTicks c count) := by
      simp [handlerTick, releasePoll, line, midPass, PassState.releaseWaiting, PassState.polling, waitIn, hc]
    have htick : tick (decide (c + 1 < lowTicks)) (midPass s (.releaseWaiting x events pending lowTicks c count)) =
        midPass s (.releaseWaiting
          { x with timerOverflow := x.timerOverflow || decide (2 ^ s.cfg.timerBits ≤ count + 1) } events pending
          lowTicks (c + 1) ((count + 1) % 2 ^ s.cfg.timerBits)) := by
      show endOfTick _ (handlerTick (midPass s (.releaseWaiting x events pending lowTicks c count))) = _
      rw [hwait, endOfTick_midPass_wrap]
      simp [PassState.releaseWaiting, PassState.polling, PassState.next, wiredAnd, hc]
    rw [masterDrive_succ, tickList, htick]
    obtain ⟨overflow, count', h⟩ := ih (x := { x with
      timerOverflow := x.timerOverflow || decide (2 ^ s.cfg.timerBits ≤ count + 1) })
      (c := c + 1) (count := (count + 1) % 2 ^ s.cfg.timerBits) (by omega)
    refine ⟨overflow, count', ?_⟩
    rw [h, Nat.add_right_comm c 1 n, Nat.add_assoc c n 1]

/-- The tick that sees the release zeroes the Timer (R128). -/
theorem tick_release (hi : 1 ≤ s.cfg.tIdle) (hb : s.cfg.tIdle < 2 ^ s.cfg.timerBits) (hl : lowTicks ≤ c) :
    tick false (midPass s (.releaseWaiting x events pending lowTicks c count)) =
      midPass s (.idling x events pending 1) := by
  have hidle : 0 < s.cfg.tIdle := hi
  have h : handlerTick (midPass s (.releaseWaiting x events pending lowTicks c count)) =
      midPass s { PassState.idling x events pending 0 with prev := false } := by
    simp [handlerTick, releasePoll, idlePoll, line, ticks, midPass, onDevice, Device.timerReset, waitIn,
      PassState.releaseWaiting, PassState.polling, PassState.idling, hl, hidle]
  rw [tick_midPass h (show 0 + 1 < _ by omega)]
  simp [PassState.next, PassState.idling, wiredAnd]

theorem tick_idling (hk : k < s.cfg.tIdle) (hb : s.cfg.tIdle < 2 ^ s.cfg.timerBits) :
    tick false (midPass s (.idling x events pending k)) = midPass s (.idling x events pending (k + 1)) := by
  have h : handlerTick (midPass s (.idling x events pending k)) = midPass s (.idling x events pending k) :=
    if_pos hk
  rw [tick_midPass h (show k + 1 < _ by omega)]
  simp [PassState.next, PassState.idling, wiredAnd]

/-- The end of the idle interval drives the line low and zeroes the Timer (R128). -/
theorem tick_assertPresence (hp : 1 ≤ s.cfg.tPres) (hb : s.cfg.tPres < 2 ^ s.cfg.timerBits) :
    tick false (midPass s (.idling x events pending s.cfg.tIdle)) = midPass s (.presenting x events pending 1) := by
  have hpres : 0 < s.cfg.tPres := hp
  have h : handlerTick (midPass s (.idling x events pending s.cfg.tIdle)) =
      midPass s { PassState.idling x events pending 0 with phase := .presence, drive := true } := by
    simp [handlerTick, idlePoll, presencePoll, ticks, midPass, onDevice, Device.timerReset, Device.setDrivenLow, waitIn,
      PassState.idling, hpres]
  rw [tick_midPass h (show 0 + 1 < _ by omega)]
  simp [PassState.next, PassState.idling, PassState.presenting, wiredAnd]

theorem tick_presenting (hk1 : 1 ≤ k) (hk : k < s.cfg.tPres) (hb : s.cfg.tPres < 2 ^ s.cfg.timerBits) :
    tick false (midPass s (.presenting x events pending k)) = midPass s (.presenting x events pending (k + 1)) := by
  have h : handlerTick (midPass s (.presenting x events pending k)) = midPass s (.presenting x events pending k) :=
    if_pos hk
  rw [tick_midPass h (show k + 1 < _ by omega)]
  simp [PassState.next, PassState.presenting, wiredAnd, hk1, Nat.ne_of_gt hk1, Bool.or_assoc, edge_seen_or_now]

/-- The return tick of the Reset sequence: with `T_PRES = 1` the edge of the presence pulse wins over the clear
(60_exceptions R229). -/
theorem tick_endOfPresence (y : Session) (overflow : Bool) (hp : 1 ≤ s.cfg.tPres)
    (hb : s.cfg.tPres < 2 ^ s.cfg.timerBits) :
    tick false (midPass s (.presenting { resetReceived y with timerOverflow := overflow } events pending s.cfg.tPres)) =
      afterResetPass s events y.pendingBitValue := by
  have h : handlerTick (midPass s
        (.presenting { resetReceived y with timerOverflow := overflow } events pending s.cfg.tPres)) =
      returnFromInterrupt (midPass s
        { PassState.presenting (sessionAfterReset y.pendingBitValue) events pending s.cfg.tPres with
          drive := false, clear := true }) :=
    if_neg (Nat.lt_irrefl _)
  have hone : decide (s.cfg.tPres ≤ 1) = (s.cfg.tPres == 1) := by
    rw [Bool.eq_iff_iff, decide_eq_true_eq, beq_iff_eq]
    omega
  show endOfTick false (handlerTick (midPass s
    (.presenting { resetReceived y with timerOverflow := overflow } events pending s.cfg.tPres))) = _
  rw [h, endOfTick_returnFromInterrupt]
  simp [PassState.next, PassState.presenting, wiredAnd, afterResetPass, Nat.mod_eq_of_lt hb, hone]

/-- The ticks from the one that sees the release to the return tick (R128, R134). -/
theorem tickList_afterRelease (y : Session) (overflow : Bool) (hc : configLegal s.cfg = true) (hl : lowTicks ≤ c) :
    tickList (List.replicate (s.cfg.tIdle + s.cfg.tPres + 1) false)
        (midPass s
          (.releaseWaiting { resetReceived y with timerOverflow := overflow } events pending lowTicks c count)) =
      afterResetPass s events y.pendingBitValue := by
  obtain ⟨-, -, -, -, -, -, -, hi1, hib, hp1, hpb, -⟩ := (configLegal_iff s.cfg).1 hc
  have hlist : List.replicate (s.cfg.tIdle + s.cfg.tPres + 1) false =
      false :: (List.replicate (s.cfg.tIdle - 1) false ++
        false :: (List.replicate (s.cfg.tPres - 1) false ++ [false])) := by
    rw [← List.replicate_one, ← List.replicate_add, ← List.replicate_succ, ← List.replicate_add,
      ← List.replicate_succ]
    congr 1
    omega
  have hidle := tickList_released (c := 1) (n := s.cfg.tIdle - 1)
    (f := fun k => midPass s (.idling { resetReceived y with timerOverflow := overflow } events pending k))
    fun k _ hk => tick_idling (by omega) hib
  have hpres := tickList_released (c := 1) (n := s.cfg.tPres - 1)
    (f := fun k => midPass s (.presenting { resetReceived y with timerOverflow := overflow } events pending k))
    fun k hk1 hk => tick_presenting hk1 (by omega) hpb
  rw [Nat.add_sub_cancel' hi1] at hidle
  rw [Nat.add_sub_cancel' hp1] at hpres
  rw [hlist, tickList, tick_release hi1 hib hl, tickList_append, hidle, tickList, tick_assertPresence hp1 hpb,
    tickList_append, hpres, tickList, tick_endOfPresence y overflow hp1 hpb, tickList]

/-- A pass whose pulse reaches the threshold ends in RESET, timed from the release. -/
theorem tickList_finalisation_reset (ho : x.timerOverflow = false) (hcfg : configLegal s.cfg = true)
    (hc : c ≤ s.cfg.tRstMin) (hl : s.cfg.tRstMin ≤ lowTicks) :
    tickList (masterDrive lowTicks (c + 1) (lowTicks - c + (s.cfg.tIdle + s.cfg.tPres + 1)))
        (midPass s (.polling .rstPoll x events pending lowTicks c)) =
      afterResetPass s (events ++ [.reset]) x.pendingBitValue := by
  obtain ⟨-, -, -, -, hb, -⟩ := (configLegal_iff s.cfg).1 hcfg
  have hcount : c + (s.cfg.tRstMin - c) = s.cfg.tRstMin := by omega
  have hthreshold : ∀ low, tick low (midPass s (.polling .rstPoll x events pending lowTicks s.cfg.tRstMin)) =
      tick low (midPass s (.releaseWaiting (resetReceived x) (events ++ [.reset]) pending lowTicks s.cfg.tRstMin
        s.cfg.tRstMin)) := fun low =>
    congrArg (endOfTick low) handlerTick_rstPoll_threshold
  obtain ⟨overflow, count', hrelease⟩ := tickList_releaseWaiting (s := s) (x := resetReceived x)
    (events := events ++ [.reset]) (pending := pending) (count := s.cfg.tRstMin)
    (c := s.cfg.tRstMin) (n := lowTicks - s.cfg.tRstMin) (lowTicks := lowTicks) (by omega)
  have hlength : lowTicks - c + (s.cfg.tIdle + s.cfg.tPres + 1) =
      s.cfg.tRstMin - c + (lowTicks - s.cfg.tRstMin + (s.cfg.tIdle + s.cfg.tPres + 1)) := by omega
  have hindex : c + 1 + (s.cfg.tRstMin - c) = s.cfg.tRstMin + 1 := by omega
  rw [hlength, masterDrive_append, tickList_append, tickList_polling (by omega) (by omega)
    fun k hk hlow => handlerTick_rstPoll_waits ho (by omega) hlow, hcount, hindex,
    tickList_congr hthreshold (masterDrive_ne_nil (by omega)), masterDrive_append, tickList_append, hrelease,
    masterDrive_released (by omega), tickList_afterRelease x overflow hcfg (by omega)]

end ResetSequence

end Sys2Proof.Machine
end

/-! PROOF. From the falling edge to the handler's first action (40_pulse_classifier R112, 60_exceptions R228 to
R230). -/
section

namespace Sys2Proof.Machine

open Sys2Proof.Safety

/-- A state at rest that an event-level pulse meets: R131 (b) and (f), with the Timer stopped. -/
structure PulseReady (s : State) : Prop where
  legal : configLegal s.cfg = true
  phase : s.phase = .wait
  irqPending : s.device.irqPending = false
  irqEnable : s.device.irqEnable = true
  driveLow : s.device.driveLow = false
  lineNow : s.device.lineNow = true
  timerRunning : s.device.timerRunning = false
  possibleReset : s.session.possibleReset = false
  timerOverflow : s.session.timerOverflow = false

/-- A block that has not yet acted on the pulse: the Timer stopped, the slave driving nothing. -/
def beforeAction (s : State) (p : Phase) (latCount : Nat) (events : List BusEvent) (pending clear prev high : Bool) :
    State :=
  { s with
    device := { s.device with
      irqPending := pending, clearNow := clear, prevLine := prev, lineNow := high, debugStrobe := false }
    phase := p
    latCount := latCount
    events := events }

/-- A poll with `unclear` set stands in the tick of interrupt entry (LAT = 1), whose clear is still to take effect. -/
def PassState.clearing (p : Phase) (x : Session) (events : List BusEvent) (unclear : Bool) (lowTicks c : Nat) :
    PassState :=
  { PassState.polling p x events unclear lowTicks c with clear := unclear }

/-- The pass in the tick of its first action, the Timer zeroed and started. -/
abbrev PassState.entry (x : Session) (unclear : Bool) (lowTicks : Nat) : PassState :=
  .clearing .lat x [] unclear lowTicks 0

section Entry

variable {s : State}

/-- The end of a tick before the first action. -/
theorem endOfTick_beforeAction (hs : PulseReady s) {low : Bool} {p : Phase} {latCount : Nat} {events : List BusEvent}
    {pending clear prev high : Bool} :
    endOfTick low (beforeAction s p latCount events pending clear prev high) =
      beforeAction s p latCount events ((pending && !clear) || (prev && !high)) false high (!low) := by
  simp [endOfTick, beforeAction, noteOverflow, onSession, timerWraps, tauNext, irqNext, edgeNow, wiredAnd,
    hs.timerRunning, hs.driveLow]

/-- The tick in which the line falls. -/
theorem tick_ready (hs : PulseReady s) (low : Bool) :
    tick low s = beforeAction s .wait s.latCount s.events false false true (!low) := by
  have h : handlerTick (onDevice (fun d => { d with debugStrobe := false }) s) =
      beforeAction s .wait s.latCount s.events false s.device.clearNow s.device.prevLine true := by
    simp [handlerTick, interruptTaken, onDevice, beforeAction, hs.phase, hs.irqPending, hs.lineNow]
  rw [tick, h, endOfTick_beforeAction hs]
  simp

/-- The tick of the falling edge, at whose end the pending flag is set. -/
theorem tick_fallingEdge (hs : PulseReady s) (low : Bool) :
    tick low (beforeAction s .wait s.latCount s.events false false true false) =
      beforeAction s .wait s.latCount s.events true false false (!low) := by
  have h : handlerTick (beforeAction s .wait s.latCount s.events false false true false) =
      beforeAction s .wait s.latCount s.events false false true false := by
    simp [handlerTick, interruptTaken, beforeAction]
  show endOfTick low (handlerTick (beforeAction s .wait s.latCount s.events false false true false)) = _
  rw [h, endOfTick_beforeAction hs]
  rfl

/-- The tick in which the interrupt is taken. -/
theorem handlerTick_interrupt (hs : PulseReady s) (high : Bool) :
    handlerTick (beforeAction s .wait s.latCount s.events true false false high) =
      enterHandler (beforeAction s .wait s.latCount s.events true false false high) := by
  simp [handlerTick, interruptTaken, beforeAction, hs.irqEnable]

/-- Interrupt entry with a latency of two ticks or more. -/
theorem tick_enterLatency (hs : PulseReady s) (hl : 2 ≤ s.cfg.lat) (low : Bool) :
    tick low (beforeAction s .wait s.latCount s.events true false false false) =
      beforeAction s .lat 0 [] false false false (!low) := by
  show endOfTick low (handlerTick (beforeAction s .wait s.latCount s.events true false false false)) = _
  have h : enterHandler (beforeAction s .wait s.latCount s.events true false false false) =
      beforeAction s .lat 0 [] true true false false := if_neg (Nat.not_le_of_lt hl)
  rw [handlerTick_interrupt hs, h, endOfTick_beforeAction hs]
  rfl

/-- A tick of the latency, but for its last. -/
theorem tick_latency (hs : PulseReady s) {k : Nat} (hk : k + 2 < s.cfg.lat) (low : Bool) :
    tick low (beforeAction s .lat k [] false false false false) =
      beforeAction s .lat (k + 1) [] false false false (!low) := by
  show endOfTick low (latencyPoll (beforeAction s .lat k [] false false false false)) = _
  have h : latencyPoll (beforeAction s .lat k [] false false false false) =
      beforeAction s .lat (k + 1) [] false false false false := if_neg (Nat.not_le_of_lt hk)
  rw [h, endOfTick_beforeAction hs]
  rfl

/-- The latency up to the tick of the first action. -/
theorem tickList_latency (hs : PulseReady s) {k : Nat} (hk : k + 2 ≤ s.cfg.lat) (low : Bool) :
    tickList (List.replicate k true ++ [low]) (beforeAction s .wait s.latCount s.events true false false false) =
      beforeAction s .lat k [] false false false (!low) := by
  induction k generalizing low with
  | zero => exact tick_enterLatency hs (by omega) low
  | succ k ih =>
    rw [List.replicate_succ', tickList_append, ih (by omega) true]
    exact tick_latency hs hk low

/-- The first action zeroes and starts the Timer whatever came before. -/
theorem firstAction_beforeAction (hs : PulseReady s) (latCount : Nat) (pending : Bool) (lowTicks : Nat) :
    firstAction (beforeAction s .lat latCount [] pending pending false (!decide (0 < lowTicks))) =
      firstAction (midPass s (.entry s.session pending lowTicks)) := by
  have h : onDevice (fun d => d.timerReset.timerStart)
        { beforeAction s .lat latCount [] pending pending false (!decide (0 < lowTicks)) with latCount := 0 } =
      midPass s (.entry s.session pending lowTicks) := by
    simp [onDevice, beforeAction, midPass, PassState.clearing, PassState.polling, Device.timerReset, Device.timerStart,
      hs.driveLow]
  unfold firstAction
  rw [h]
  rfl

/-- From the tick before the falling edge to the first action, which comes LAT ticks after the edge. -/
theorem tickList_entry (hs : PulseReady s) (lowTicks : Nat) :
    ∃ pending, ∀ low rest,
      tickList (List.replicate s.cfg.lat true ++ decide (0 < lowTicks) :: low :: rest) s =
        tickList rest (endOfTick low (firstAction (midPass s (.entry s.session pending lowTicks)))) := by
  obtain ⟨hlat, -⟩ := (configLegal_iff s.cfg).1 hs.legal
  by_cases h1 : s.cfg.lat = 1
  · refine ⟨true, fun low rest => ?_⟩
    rw [h1]
    show tickList rest (tick low (tick (decide (0 < lowTicks)) (tick true s))) = _
    rw [tick_ready hs, Bool.not_true, tick_fallingEdge hs]
    have h : enterHandler (beforeAction s .wait s.latCount s.events true false false (!decide (0 < lowTicks))) =
        firstAction (beforeAction s .lat 0 [] true true false (!decide (0 < lowTicks))) := if_pos (le_of_eq h1)
    show tickList rest (endOfTick low (handlerTick
      (beforeAction s .wait s.latCount s.events true false false (!decide (0 < lowTicks))))) = _
    rw [handlerTick_interrupt hs, h, firstAction_beforeAction hs]
  · obtain ⟨k, hk⟩ : ∃ k, s.cfg.lat = k + 2 := ⟨s.cfg.lat - 2, by omega⟩
    refine ⟨false, fun low rest => ?_⟩
    have hlist : List.replicate s.cfg.lat true ++ decide (0 < lowTicks) :: low :: rest =
        true :: true :: ((List.replicate k true ++ [decide (0 < lowTicks)]) ++ low :: rest) := by
      rw [hk, List.replicate_succ, List.replicate_succ, List.append_assoc]
      rfl
    rw [hlist, tickList, tickList, tick_ready hs, Bool.not_true, tick_fallingEdge hs, Bool.not_true, tickList_append,
      tickList_latency hs (by omega)]
    have h : latencyPoll (beforeAction s .lat k [] false false false (!decide (0 < lowTicks))) =
        firstAction (beforeAction s .lat (k + 1) [] false false false (!decide (0 < lowTicks))) :=
      if_pos (le_of_eq hk)
    show tickList rest (endOfTick low (latencyPoll
      (beforeAction s .lat k [] false false false (!decide (0 < lowTicks))))) = _
    rw [h, firstAction_beforeAction hs]

end Entry

end Sys2Proof.Machine
end

/-! PROOF. The passes at tick level, by mode: from the first action to the tick after the return tick
(40_pulse_classifier R113 to R129). -/
section

namespace Sys2Proof.Machine

open Sys2Proof.Safety

/-! ### What a whole pass leaves at tick level -/

/-- The state after a pass that finalises from tick `c` after the first action with the line driver released. -/
def finalised (s : State) (x : Session) (events : List BusEvent) (pending : Bool) (lowTicks c : Nat) : State :=
  if s.cfg.tRstMin ≤ lowTicks then afterResetPass s (events ++ [.reset]) x.pendingBitValue
  else afterPass s false pending (max lowTicks c) events (passEnd x)

/-- Ticks from the first action to the return tick of such a pass (40_pulse_classifier R134). -/
def finalReturn (s : State) (lowTicks c : Nat) : Nat :=
  if s.cfg.tRstMin ≤ lowTicks then lowTicks + s.cfg.tIdle + s.cfg.tPres else max lowTicks c

section Modes

variable {s : State} {x : Session} {events : List BusEvent} {pending low : Bool} {lowTicks c : Nat} {p : Phase}

/-- Reset finalisation, with and without RESET. -/
theorem tickList_finalisation (ho : x.timerOverflow = false) (hcfg : configLegal s.cfg = true)
    (hc : c < s.cfg.tRstMin) :
    tickList (masterDrive lowTicks (c + 1) (finalReturn s lowTicks c - c + 1))
        (midPass s (.polling .rstPoll x events pending lowTicks c)) =
      finalised s x events pending lowTicks c := by
  obtain ⟨-, -, -, -, hb, -⟩ := (configLegal_iff s.cfg).1 hcfg
  by_cases hl : s.cfg.tRstMin ≤ lowTicks
  · have hn : finalReturn s lowTicks c - c + 1 = lowTicks - c + (s.cfg.tIdle + s.cfg.tPres + 1) := by
      rw [finalReturn, if_pos hl]
      omega
    rw [hn, tickList_finalisation_reset ho hcfg hc.le hl, finalised, if_pos hl]
  · rw [finalReturn, finalised, if_neg hl, if_neg hl, tickList_finalisation_released ho hb hc (Nat.lt_of_not_le hl)]

theorem lineNow_clearing_high {b : Bool} (h : lowTicks ≤ c) :
    (midPass s (.clearing p x events b lowTicks c)).device.lineNow = true :=
  lineNow_polling_high (s := s) (p := p) (x := x) (events := events) (pending := b) h

theorem lineNow_clearing_low {b : Bool} (h : c < lowTicks) :
    (midPass s (.clearing p x events b lowTicks c)).device.lineNow = false :=
  lineNow_polling_low (s := s) (p := p) (x := x) (events := events) (pending := b) h

/-- A round of the finalisation poll below the threshold, in the tick of the first action or later. -/
theorem endOfTick_finalisationPoll (ho : x.timerOverflow = false) (hc : c < s.cfg.tRstMin) (b : Bool) :
    endOfTick low (finalisationPoll exitHandler (midPass s (.clearing p x events b lowTicks c))) =
      tick low (midPass s (.polling .rstPoll x events false lowTicks c)) := by
  show _ = endOfTick low (finalisationPoll exitHandler (midPass s (.polling .rstPoll x events false lowTicks c)))
  by_cases hl : lowTicks ≤ c
  · rw [finalisationPoll_released ho hc (lineNow_clearing_high hl),
      finalisationPoll_released ho hc (lineNow_polling_high hl)]
    cases b <;> rfl
  · rw [finalisationPoll_waits ho hc (lineNow_clearing_low (Nat.lt_of_not_le hl)),
      finalisationPoll_waits ho hc (lineNow_polling_low (Nat.lt_of_not_le hl))]
    cases b <;> rfl

theorem afterClassification_of_clear {s : State} (h : s.session.possibleReset = false) :
    afterClassification s = exitHandler s := by
  simp [afterClassification, h]

theorem afterClassification_of_set {s : State} (h : s.session.possibleReset = true) :
    afterClassification s = finalisationPoll exitHandler s := by
  simp [afterClassification, h]

/-- The first action on a Timer that stands at zero classifies at once (R113). -/
theorem firstAction_entry :
    firstAction (midPass s (.entry x pending lowTicks)) =
      if x.read0Armed then fastPath (midPass s (.entry x pending lowTicks))
      else if x.expectingRead then afterClassification (readDelivered .read1 (midPass s (.entry x pending lowTicks)))
      else writePoll (midPass s (.entry x pending lowTicks)) := rfl

/-! ### Read mode -/

theorem readDelivered_possibleReset (e : BusEvent) (s : State) :
    (readDelivered e s).session.possibleReset = true := rfl

theorem readDelivered_timerOverflow (e : BusEvent) (s : State) :
    (readDelivered e s).session.timerOverflow = s.session.timerOverflow :=
  (rearm_flags s.mem s.session).timerOverflow

/-- READ1 is delivered at the first action, and finalisation follows in the same tick (R124). -/
theorem endOfTick_firstAction_read1 (hs : PulseReady s) (ha : s.session.read0Armed = false)
    (he : s.session.expectingRead = true) :
    endOfTick low (firstAction (midPass s (.entry s.session pending lowTicks))) =
      tick low (midPass s (.polling .rstPoll (readDelivered .read1 s).session [.read1] false lowTicks 0)) := by
  obtain ⟨-, h1, h2, h3, -⟩ := (configLegal_iff s.cfg).1 hs.legal
  have h : firstAction (midPass s (.entry s.session pending lowTicks)) =
      afterClassification (readDelivered .read1 (midPass s (.entry s.session pending lowTicks))) := by
    simp only [firstAction_entry, ha, he, Bool.false_eq_true, if_false, if_true]
  rw [h, afterClassification_of_set (readDelivered_possibleReset _ _)]
  exact endOfTick_finalisationPoll ((readDelivered_timerOverflow .read1 s).trans hs.timerOverflow)
    (show 0 < s.cfg.tRstMin by omega) pending

/-! ### Write mode -/

theorem writePoll_waits {s : State} (hc : s.device.tau < s.cfg.tW0Min) (hl : s.device.lineNow = false) :
    writePoll s = waitIn .wPoll s := by
  simp [writePoll, ticks, line, hl, Nat.not_le_of_lt hc]

theorem writePoll_glitch {s : State} (hc : s.device.tau < s.cfg.tW0Min) (hl : s.device.lineNow = true)
    (hk : s.cfg.skip = true) (hw : s.device.tau < s.cfg.tW1Min) : writePoll s = exitGlitch s := by
  simp [writePoll, ticks, line, hl, hk, hw, Nat.not_le_of_lt hc]

theorem writePoll_write0 {s : State} (hc : s.cfg.tW0Min ≤ s.device.tau) :
    writePoll s = afterClassification (write0Delivered s) := if_pos hc

theorem write1Delivered_possibleReset (s : State) :
    (write1Delivered s).session.possibleReset = s.session.possibleReset :=
  (onWriteBit_flags s.mem s.cfg.cmdDiscover true { s.session with pendingBitValue := true }).possibleReset

theorem write0Delivered_possibleReset (s : State) : (write0Delivered s).session.possibleReset = true :=
  (onWriteBit_flags s.mem s.cfg.cmdDiscover false
    { s.session with possibleReset := true, pendingBitValue := false }).possibleReset

theorem write0Delivered_timerOverflow (s : State) :
    (write0Delivered s).session.timerOverflow = s.session.timerOverflow :=
  (onWriteBit_flags s.mem s.cfg.cmdDiscover false
    { s.session with possibleReset := true, pendingBitValue := false }).timerOverflow

/-- With PR clear a WRITE1 returns in the tick in which it is delivered. -/
theorem writePoll_write1 {s : State} (hc : s.device.tau < s.cfg.tW0Min) (hl : s.device.lineNow = true)
    (hk : ¬(s.cfg.skip = true ∧ s.device.tau < s.cfg.tW1Min)) (hp : s.session.possibleReset = false) :
    writePoll s = exitHandler (write1Delivered s) := by
  have hdrop : ¬(s.cfg.skip && decide (ticks s < s.cfg.tW1Min)) = true := by
    rw [Bool.and_eq_true, decide_eq_true_eq]
    exact hk
  calc
    writePoll s = afterClassification (write1Delivered s) :=
      (if_neg (Nat.not_le_of_lt hc)).trans ((if_pos hl).trans (if_neg hdrop))
    _ = exitHandler (write1Delivered s) :=
      afterClassification_of_clear ((write1Delivered_possibleReset s).trans hp)

/-- In write mode the first action polls at once (R113). -/
theorem endOfTick_firstAction_write (hs : PulseReady s) (ha : s.session.read0Armed = false)
    (he : s.session.expectingRead = false) :
    endOfTick low (firstAction (midPass s (.entry s.session pending lowTicks))) =
      tick low (midPass s (.polling .wPoll s.session [] false lowTicks 0)) := by
  obtain ⟨-, h1, h2, h3, -⟩ := (configLegal_iff s.cfg).1 hs.legal
  have hc : 0 < s.cfg.tW0Min := by omega
  have h : firstAction (midPass s (.entry s.session pending lowTicks)) =
      writePoll (midPass s (.entry s.session pending lowTicks)) := by
    simp only [firstAction_entry, ha, he, Bool.false_eq_true, if_false]
  rw [h]
  show _ = endOfTick low (writePoll (midPass s (.polling .wPoll s.session [] false lowTicks 0)))
  by_cases hl : lowTicks ≤ 0
  · by_cases hk : s.cfg.skip = true ∧ 0 < s.cfg.tW1Min
    · rw [writePoll_glitch hc (lineNow_clearing_high hl) hk.1 hk.2,
        writePoll_glitch hc (lineNow_polling_high hl) hk.1 hk.2]
      cases pending <;> rfl
    · rw [writePoll_write1 hc (lineNow_clearing_high hl) hk hs.possibleReset,
        writePoll_write1 hc (lineNow_polling_high hl) hk hs.possibleReset]
      cases pending <;> rfl
  · rw [writePoll_waits hc (lineNow_clearing_low (Nat.lt_of_not_le hl)),
      writePoll_waits hc (lineNow_polling_low (Nat.lt_of_not_le hl))]
    cases pending <;> rfl

/-- The write-mode poll waits while the line is low (R114). -/
theorem tickList_writePoll (hcfg : configLegal s.cfg = true) {n : Nat} (hn : n ≤ s.cfg.tW0Min) (hl : n ≤ lowTicks) :
    tickList (masterDrive lowTicks 1 n) (midPass s (.polling .wPoll x [] false lowTicks 0)) =
      midPass s (.polling .wPoll x [] false lowTicks n) := by
  obtain ⟨-, h1, h2, h3, hb, -⟩ := (configLegal_iff s.cfg).1 hcfg
  have h := tickList_polling (s := s) (p := .wPoll) (x := x) (events := []) (pending := false) (lowTicks := lowTicks)
    (c := 0) (n := n) (by omega) (by omega)
    fun k hk hlow => writePoll_waits (show k < s.cfg.tW0Min by omega) (lineNow_polling_low hlow)
  rwa [Nat.zero_add, Nat.zero_add] at h

/-- A short pulse in write mode: dropped by SKIP, or WRITE1 (R120, R122). -/
theorem tickList_write_short (hs : PulseReady s) (hl : lowTicks < s.cfg.tW0Min) :
    tickList (masterDrive lowTicks 1 (lowTicks + 1)) (midPass s (.polling .wPoll s.session [] false lowTicks 0)) =
      if s.cfg.skip = true ∧ lowTicks < s.cfg.tW1Min then afterPass s false false lowTicks [.glitch] s.session
      else afterPass s false false lowTicks [.write1] (passEnd (write1Delivered s).session) := by
  obtain ⟨-, -, h2, h3, hb, -⟩ := (configLegal_iff s.cfg).1 hs.legal
  have hcount : lowTicks < 2 ^ s.cfg.timerBits := by omega
  rw [masterDrive_append, tickList_append, tickList_writePoll hs.legal hl.le le_rfl, masterDrive_released (by omega)]
  show endOfTick false (writePoll (midPass s (.polling .wPoll s.session [] false lowTicks lowTicks))) = _
  split
  next hk =>
    rw [writePoll_glitch hl (lineNow_polling_high le_rfl) hk.1 hk.2]
    exact endOfTick_return_polling (p := .wPoll) (events := [.glitch]) le_rfl hcount
  next hk =>
    have hend : passEnd (write1Delivered s).session =
        { (write1Delivered s).session with read0Armed := armedNext (write1Delivered s).session } := by
      rw [passEnd, ← hs.possibleReset, ← write1Delivered_possibleReset s]
      rfl
    rw [writePoll_write1 hl (lineNow_polling_high le_rfl) hk hs.possibleReset, hend]
    exact endOfTick_return_polling (p := .wPoll) (events := [.write1]) le_rfl hcount

/-- At the threshold WRITE0 is delivered, and finalisation follows in the same tick (R123). -/
theorem tick_writePoll_threshold (hs : PulseReady s) :
    tick low (midPass s (.polling .wPoll s.session [] false lowTicks s.cfg.tW0Min)) =
      tick low (midPass s
        (.polling .rstPoll (write0Delivered s).session [.write0] false lowTicks s.cfg.tW0Min)) := by
  obtain ⟨-, -, -, h3, -⟩ := (configLegal_iff s.cfg).1 hs.legal
  show endOfTick low (writePoll (midPass s (.polling .wPoll s.session [] false lowTicks s.cfg.tW0Min))) = _
  rw [writePoll_write0 le_rfl, afterClassification_of_set (write0Delivered_possibleReset _)]
  exact endOfTick_finalisationPoll ((write0Delivered_timerOverflow s).trans hs.timerOverflow) h3 false

/-- A long pulse in write mode: WRITE0 at the threshold, with or without RESET. -/
theorem tickList_write_long (hs : PulseReady s) (hl : s.cfg.tW0Min ≤ lowTicks) :
    tickList (masterDrive lowTicks 1 (finalReturn s lowTicks 0 + 1))
        (midPass s (.polling .wPoll s.session [] false lowTicks 0)) =
      finalised s (write0Delivered s).session [.write0] false lowTicks 0 := by
  obtain ⟨-, -, -, h3, -⟩ := (configLegal_iff s.cfg).1 hs.legal
  have hmax : max lowTicks s.cfg.tW0Min = max lowTicks 0 := by omega
  have hreturn : finalReturn s lowTicks 0 + 1 =
      s.cfg.tW0Min + (finalReturn s lowTicks s.cfg.tW0Min - s.cfg.tW0Min + 1) := by
    simp only [finalReturn, hmax]
    split <;> omega
  have hfinal : finalised s (write0Delivered s).session [.write0] false lowTicks 0 =
      finalised s (write0Delivered s).session [.write0] false lowTicks s.cfg.tW0Min := by
    simp only [finalised, hmax]
  rw [hreturn, masterDrive_append, tickList_append, tickList_writePoll hs.legal le_rfl hl,
    tickList_congr (fun _ => tick_writePoll_threshold hs) (masterDrive_ne_nil (Nat.succ_pos _)), Nat.add_comm 1, hfinal]
  exact tickList_finalisation ((write0Delivered_timerOverflow s).trans hs.timerOverflow) hs.legal h3

/-! ### The fast path -/

/-- SKIP drops a pulse that is over at the first action of an armed pass (R121). -/
theorem endOfTick_firstAction_glitch (ha : s.session.read0Armed = true) (hk : s.cfg.skip = true) :
    endOfTick false (firstAction (midPass s (.entry s.session pending 0))) =
      afterPass s false false 0 [.glitch] s.session := by
  have h : firstAction (midPass s (.entry s.session pending 0)) =
      returnFromInterrupt (midPass s { PassState.entry s.session pending 0 with events := [.glitch] }) := by
    rw [firstAction_entry, if_pos ha]
    simp [fastPath, exitGlitch, emit, line, midPass, PassState.clearing, PassState.polling, hk]
  rw [h, endOfTick_return_high rfl rfl rfl (Nat.two_pow_pos _)]
  simp [PassState.clearing, PassState.polling]

/-- The Read-0 hold, `k` ticks after the first action; a `phantom` edge is the slave's own assertion, on a line that the
master has released (70_reset_and_hazards R274). -/
def PassState.holding (x : Session) (phantom strobe : Bool) (k : Nat) : PassState where
  phase := .r0Hold
  session := x
  events := []
  drive := true
  pending := phantom && decide (2 ≤ k)
  clear := false
  prev := phantom && decide (k ≤ 1)
  high := false
  strobe := strobe && decide (k ≤ 1)
  count := k

/-- The tick of the assertion (R125, R132). -/
theorem endOfTick_firstAction_hold (hs : PulseReady s) (ha : s.session.read0Armed = true)
    (hk : ¬(s.cfg.skip = true ∧ lowTicks = 0)) :
    endOfTick low (firstAction (midPass s (.entry s.session pending lowTicks))) =
      midPass s (.holding s.session (!decide (0 < lowTicks)) s.cfg.debugStrobe 1) := by
  obtain ⟨-, h1, h2, h3, hb, hx, -⟩ := (configLegal_iff s.cfg).1 hs.legal
  have hext : 0 < s.cfg.tR0Ext := hx
  have h : firstAction (midPass s (.entry s.session pending lowTicks)) =
      midPass s { PassState.entry s.session pending lowTicks with
        phase := .r0Hold, drive := true, strobe := s.cfg.debugStrobe } := by
    have hfilter : (s.cfg.skip && !decide (0 < lowTicks)) = false := by
      rw [Bool.eq_false_iff]
      simpa using hk
    rw [firstAction_entry, if_pos ha]
    cases hd : s.cfg.debugStrobe <;>
      simp [fastPath, holdPoll, waitIn, ticks, line, midPass, PassState.clearing, PassState.polling, onDevice,
        Device.setDrivenLow, Device.strobe, hd, hext, hfilter]
  rw [h, endOfTick_midPass (show 0 + 1 < _ by omega)]
  simp [PassState.next, PassState.clearing, PassState.polling, PassState.holding, wiredAnd]

variable {phantom strobe : Bool} {k : Nat}

theorem holding_next (hk : 1 ≤ k) :
    (PassState.holding x phantom false k).next low = .holding x phantom strobe (k + 1) := by
  simp [PassState.next, PassState.holding, wiredAnd, hk, Nat.ne_of_gt hk, ← Bool.and_or_distrib_left, edge_seen_or_now]

/-- The hold goes on whatever the master does (R114). -/
theorem tick_holding (hcfg : configLegal s.cfg = true) (hk1 : 1 ≤ k) (hk : k < s.cfg.tR0Ext) :
    tick low (midPass s (.holding x phantom strobe k)) = midPass s (.holding x phantom strobe (k + 1)) := by
  obtain ⟨-, -, -, -, hb, -, hx, -⟩ := (configLegal_iff s.cfg).1 hcfg
  have h : handlerTick (midPass s (.holding x phantom false k)) = midPass s (.holding x phantom false k) := if_pos hk
  rw [tick_midPass h (show k + 1 < _ by omega), holding_next hk1]

/-- The end of the hold delivers READ0, and finalisation waits in the same tick, in which the line is still low. -/
theorem tick_endOfHold (hs : PulseReady s) :
    tick (decide (s.cfg.tR0Ext + 1 < lowTicks)) (midPass s (.holding s.session phantom strobe s.cfg.tR0Ext)) =
      midPass s (.polling .rstPoll (readDelivered .read0 s).session [.read0] phantom lowTicks (s.cfg.tR0Ext + 1)) := by
  obtain ⟨-, -, -, -, hb, hx1, hx, -⟩ := (configLegal_iff s.cfg).1 hs.legal
  have h : handlerTick (midPass s (.holding s.session phantom false s.cfg.tR0Ext)) =
      midPass s { PassState.holding (readDelivered .read0 s).session phantom false s.cfg.tR0Ext with
        phase := .rstPoll, drive := false, events := [.read0] } :=
    calc
      _ = afterClassification (readDelivered .read0 (onDevice Device.setInputMode
            (midPass s (.holding s.session phantom false s.cfg.tR0Ext)))) := if_neg (Nat.lt_irrefl _)
      _ = finalisationPoll exitHandler (readDelivered .read0 (onDevice Device.setInputMode
            (midPass s (.holding s.session phantom false s.cfg.tR0Ext)))) :=
          afterClassification_of_set (readDelivered_possibleReset _ _)
      _ = _ := finalisationPoll_waits ((readDelivered_timerOverflow .read0 s).trans hs.timerOverflow) hx rfl
  rw [tick_midPass h (show s.cfg.tR0Ext + 1 < _ by omega)]
  simp [PassState.next, PassState.holding, PassState.polling, wiredAnd, ← Bool.and_or_distrib_left, edge_seen_or_now]

/-- A pass that holds the line for a Read-0, with or without RESET (R125). -/
theorem tickList_hold (hs : PulseReady s) (hx : s.cfg.tR0Ext + 1 < s.cfg.tRstMin) :
    tickList (masterDrive lowTicks 2 (finalReturn s lowTicks (s.cfg.tR0Ext + 1)))
        (midPass s (.holding s.session phantom strobe 1)) =
      finalised s (readDelivered .read0 s).session [.read0] phantom lowTicks (s.cfg.tR0Ext + 1) := by
  obtain ⟨-, -, -, -, -, hx1, -⟩ := (configLegal_iff s.cfg).1 hs.legal
  have hreturn : finalReturn s lowTicks (s.cfg.tR0Ext + 1) =
      s.cfg.tR0Ext - 1 + (finalReturn s lowTicks (s.cfg.tR0Ext + 1) - (s.cfg.tR0Ext + 1) + 1 + 1) := by
    unfold finalReturn
    split <;> omega
  have hhold := tickList_trajectory (lowTicks := lowTicks) (c := 1) (n := s.cfg.tR0Ext - 1)
    (f := fun k => midPass s (.holding s.session phantom strobe k))
    fun k hk1 hk => tick_holding hs.legal hk1 (by omega)
  rw [Nat.add_sub_cancel' hx1] at hhold
  rw [hreturn, masterDrive_append, tickList_append, hhold, show 2 + (s.cfg.tR0Ext - 1) = s.cfg.tR0Ext + 1 by omega,
    masterDrive_succ, tickList, tick_endOfHold hs]
  exact tickList_finalisation ((readDelivered_timerOverflow .read0 s).trans hs.timerOverflow) hs.legal hx

end Modes

end Sys2Proof.Machine
end

/-! PROOF. The event level (40_pulse_classifier R130), and that the two levels agree (O51). -/
section

namespace Sys2Proof.Machine

open Sys2Proof.Safety

/-! ### The row of a pulse -/

theorem decodePulseByte_setWidth (key : Key) : decodePulseByte (key.setWidth 8) = decodeKey key := by
  have h : key.toNat < 64 := key.isLt
  simp [decodePulseByte, Nat.mod_eq_of_lt (show key.toNat < 256 by omega), h]

theorem decode_pulseBytes (disc : Byte) (lowTicks : Nat) (s : State) :
    decode disc (pulseBytes lowTicks s) = decodeKey (keyOfPulse lowTicks s) :=
  decodePulseByte_setWidth _

/-- The armed rows of R84 run the armed pass of their band. -/
theorem exec_armed_row (k er : Bool) (b : Band) :
    ∃ i, decodeKey (pulseKey k er true b) = .ok i ∧ ∀ s, exec i s = .next (armedPass k b s) := by
  cases k <;> cases er <;> cases b <;> exact ⟨_, rfl, fun _ => rfl⟩

/-- The read rows of R84 run the read pass of their band. -/
theorem exec_read_row (k : Bool) (b : Band) :
    ∃ i, decodeKey (pulseKey k true false b) = .ok i ∧ ∀ s, exec i s = .next (readPass b s) := by
  cases k <;> cases b <;> exact ⟨_, rfl, fun _ => rfl⟩

/-- The write rows of R84 run the write pass of their band. -/
theorem exec_write_row (k : Bool) (b : Band) :
    ∃ i, decodeKey (pulseKey k false false b) = .ok i ∧ ∀ s, exec i s = .next (writePass k b s) := by
  cases k <;> cases b <;> exact ⟨_, rfl, fun _ => rfl⟩

/-- The row that a pulse selects runs the pass of the pulse's band. -/
theorem exec_pulse_row (lowTicks : Nat) (s : State) :
    ∃ i, decodeKey (keyOfPulse lowTicks s) = .ok i ∧
      ∀ t : State, t.cfg = s.cfg → t.session = s.session →
        exec i t = .next (eventPass (bandOf s.cfg lowTicks) t) := by
  unfold keyOfPulse
  cases ha : s.session.read0Armed with
  | true =>
    obtain ⟨i, hd, hx⟩ := exec_armed_row s.cfg.skip s.session.expectingRead (bandOf s.cfg lowTicks)
    exact ⟨i, hd, fun t hc hs => by simp [hx, eventPass, hc, hs, ha]⟩
  | false =>
    cases he : s.session.expectingRead with
    | true =>
      obtain ⟨i, hd, hx⟩ := exec_read_row s.cfg.skip (bandOf s.cfg lowTicks)
      exact ⟨i, hd, fun t hc hs => by simp [hx, eventPass, hs, ha, he]⟩
    | false =>
      obtain ⟨i, hd, hx⟩ := exec_write_row s.cfg.skip (bandOf s.cfg lowTicks)
      exact ⟨i, hd, fun t hc hs => by simp [hx, eventPass, hc, hs, ha, he]⟩

/-- One event-level step is the pass of the pulse's band. -/
theorem step_pulse {s : State} {lowTicks : Nat} {rest : List Input} (hc : configLegal s.cfg = true)
    (hi : s.input = .pulse lowTicks :: rest) (ha : pulseAccepted s = true) :
    step s = .next (eventPass (bandOf s.cfg lowTicks) { s with lowTicks := lowTicks, input := rest }) := by
  obtain ⟨i, hd, hx⟩ := exec_pulse_row lowTicks s
  rw [step_pulse_accepted hc hi ha, runBytes_of_decode ((decode_pulseBytes _ _ s).trans hd)]
  exact hx _ rfl rfl

/-! ### What each pass leaves, at event level -/

/-- A pass at event level before its conclusion: the session state and the events so far, the slave driving nothing. -/
def passBegun (s : State) (x : Session) (events : List BusEvent) (pending : Bool) : State :=
  { beginPass s with
    session := x
    device := { (beginPass s).device with driveLow := false, irqPending := pending }
    events := events }

section EventLevel

variable {s : State} {x : Session} {events : List BusEvent} {pending : Bool} {c : Nat}

/-- The conclusion of a pass that has set PR: with or without RESET, by the pulse's length. -/
theorem concludePass_passBegun (hp : x.possibleReset = true) (ho : x.timerOverflow = false) :
    concludePass (decide (s.cfg.tRstMin ≤ s.lowTicks)) (max s.lowTicks c) (passBegun s x events pending) =
      finalised s x events pending s.lowTicks c := by
  by_cases hl : s.cfg.tRstMin ≤ s.lowTicks
  · rw [finalised, if_pos hl, decide_eq_true hl, concludePass_reset (by simp [passBegun, hp])]
    rfl
  · rw [finalised, if_neg hl, decide_eq_false hl, concludePass_released (by simp [passBegun, ho])]
    rfl

theorem beginPass_eq (hs : PulseReady s) : beginPass s = passBegun s s.session [] false := by
  simp [beginPass, passBegun, hs.driveLow]

theorem glitchPass_eq (hs : PulseReady s) : glitchPass s = afterPass s false false s.lowTicks [.glitch] s.session := by
  rw [glitchPass, beginPass_eq hs]
  rfl

theorem write1Pass_eq (hs : PulseReady s) :
    write1Pass s = afterPass s false false s.lowTicks [.write1] (passEnd (write1Delivered s).session) := by
  have hp : ((write1Delivered (beginPass s)).session.possibleReset &&
      (false || (write1Delivered (beginPass s)).session.timerOverflow)) = false := by
    simp [write1Delivered_possibleReset, hs.possibleReset]
  rw [write1Pass, concludePass_released hp, beginPass_eq hs]
  rfl

theorem write0Pass_eq (hs : PulseReady s) :
    write0Pass (decide (s.cfg.tRstMin ≤ s.lowTicks)) s =
      finalised s (write0Delivered s).session [.write0] false s.lowTicks 0 := by
  have h := concludePass_passBegun (s := s) (c := 0) (events := [.write0]) (pending := false)
    (write0Delivered_possibleReset s) ((write0Delivered_timerOverflow s).trans hs.timerOverflow)
  rw [Nat.max_zero] at h
  rw [write0Pass, beginPass_eq hs]
  exact h

theorem read1Pass_eq (hs : PulseReady s) :
    read1Pass (decide (s.cfg.tRstMin ≤ s.lowTicks)) s =
      finalised s (readDelivered .read1 s).session [.read1] false s.lowTicks 0 := by
  have h := concludePass_passBegun (s := s) (c := 0) (events := [.read1]) (pending := false)
    (readDelivered_possibleReset .read1 s) ((readDelivered_timerOverflow .read1 s).trans hs.timerOverflow)
  rw [Nat.max_zero] at h
  rw [read1Pass, beginPass_eq hs]
  exact h

theorem read0Pass_eq (hs : PulseReady s) :
    read0Pass (decide (s.cfg.tRstMin ≤ s.lowTicks)) s =
      finalised s (readDelivered .read0 s).session [.read0] false s.lowTicks (s.cfg.tR0Ext + 1) :=
  concludePass_passBegun (events := [.read0]) (pending := false) (readDelivered_possibleReset .read0 s)
    ((readDelivered_timerOverflow .read0 s).trans hs.timerOverflow)

theorem read0PhantomPass_eq (hs : PulseReady s) (hl : s.lowTicks < s.cfg.tRstMin) :
    read0PhantomPass s =
      finalised s (readDelivered .read0 s).session [.read0] true s.lowTicks (s.cfg.tR0Ext + 1) := by
  have h := concludePass_passBegun (s := s) (c := s.cfg.tR0Ext + 1) (events := [.read0]) (pending := true)
    (readDelivered_possibleReset .read0 s) ((readDelivered_timerOverflow .read0 s).trans hs.timerOverflow)
  rwa [decide_eq_false (Nat.not_le_of_lt hl)] at h

/-! ### The passes by the pulse's length -/

theorem bandOf_eq_bandD_iff (hcfg : configLegal s.cfg = true) :
    bandOf s.cfg s.lowTicks = .bandD ↔ s.cfg.tRstMin ≤ s.lowTicks := by
  obtain ⟨-, h1, h2, h3, -⟩ := (configLegal_iff s.cfg).1 hcfg
  unfold bandOf
  split_ifs with hz ha hb hc <;> simp only [true_iff, false_iff] <;> omega

theorem bandOf_eq_bandZ_iff : bandOf s.cfg s.lowTicks = .bandZ ↔ s.lowTicks = 0 := by
  unfold bandOf
  split_ifs with hz ha hb hc <;> simp [hz]

theorem armedPass_zero (skip : Bool) (hl : s.lowTicks = 0) :
    armedPass skip (bandOf s.cfg s.lowTicks) s = if skip then glitchPass s else read0PhantomPass s := by
  rw [bandOf_eq_bandZ_iff.2 hl]
  rfl

theorem armedPass_pos (hcfg : configLegal s.cfg = true) (skip : Bool) (hl : s.lowTicks ≠ 0) :
    armedPass skip (bandOf s.cfg s.lowTicks) s = read0Pass (decide (s.cfg.tRstMin ≤ s.lowTicks)) s := by
  by_cases hr : s.cfg.tRstMin ≤ s.lowTicks
  · rw [(bandOf_eq_bandD_iff hcfg).2 hr, decide_eq_true hr]
    rfl
  · have hz := mt bandOf_eq_bandZ_iff.1 hl
    have hd := mt (bandOf_eq_bandD_iff hcfg).1 hr
    rw [decide_eq_false hr]
    cases hb : bandOf s.cfg s.lowTicks with
    | bandZ => exact absurd hb hz
    | bandD => exact absurd hb hd
    | bandA => rfl
    | bandB => rfl
    | bandC => rfl

theorem readPass_bandOf (hcfg : configLegal s.cfg = true) :
    readPass (bandOf s.cfg s.lowTicks) s = read1Pass (decide (s.cfg.tRstMin ≤ s.lowTicks)) s := by
  by_cases hr : s.cfg.tRstMin ≤ s.lowTicks
  · rw [(bandOf_eq_bandD_iff hcfg).2 hr, decide_eq_true hr]
    rfl
  · have hd := mt (bandOf_eq_bandD_iff hcfg).1 hr
    rw [decide_eq_false hr]
    cases hb : bandOf s.cfg s.lowTicks with
    | bandD => exact absurd hb hd
    | bandZ => rfl
    | bandA => rfl
    | bandB => rfl
    | bandC => rfl

theorem writePass_short (hcfg : configLegal s.cfg = true) (hl : s.lowTicks < s.cfg.tW0Min) :
    writePass s.cfg.skip (bandOf s.cfg s.lowTicks) s =
      if s.cfg.skip = true ∧ s.lowTicks < s.cfg.tW1Min then glitchPass s else write1Pass s := by
  obtain ⟨-, h1, -⟩ := (configLegal_iff s.cfg).1 hcfg
  by_cases hw : s.lowTicks < s.cfg.tW1Min
  · have hshort : writePass s.cfg.skip (bandOf s.cfg s.lowTicks) s =
        if s.cfg.skip then glitchPass s else write1Pass s := by
      by_cases hz : s.lowTicks = 0
      · rw [bandOf, if_pos hz]
        rfl
      · rw [bandOf, if_neg hz, if_pos hw]
        rfl
    simp [hshort, hw]
  · rw [bandOf, if_neg (by omega), if_neg hw, if_pos hl, if_neg fun h => hw h.2]
    rfl

theorem writePass_long (hcfg : configLegal s.cfg = true) (hl : s.cfg.tW0Min ≤ s.lowTicks) :
    writePass s.cfg.skip (bandOf s.cfg s.lowTicks) s = write0Pass (decide (s.cfg.tRstMin ≤ s.lowTicks)) s := by
  obtain ⟨-, h1, h2, h3, -⟩ := (configLegal_iff s.cfg).1 hcfg
  rw [bandOf, if_neg (by omega), if_neg (by omega), if_neg (by omega)]
  by_cases hr : s.cfg.tRstMin ≤ s.lowTicks
  · rw [if_neg (Nat.not_lt_of_le hr), decide_eq_true hr]
    rfl
  · rw [if_pos (Nat.lt_of_not_le hr), decide_eq_false hr]
    rfl

/-! ### The two levels agree, by mode -/

theorem holdsLine_iff : holdsLine s s.lowTicks = true ↔
    s.session.read0Armed = true ∧ ¬(s.cfg.skip = true ∧ s.lowTicks = 0) := by
  simp [holdsLine, imp_iff_not_or]

theorem returnAfter_of_released (h : holdsLine s s.lowTicks = false) :
    returnAfter s s.lowTicks = finalReturn s s.lowTicks 0 := by
  simp [returnAfter, highAfter, finalReturn, h]

theorem returnAfter_of_hold (hx : s.cfg.tR0Ext + 1 < s.cfg.tRstMin) (h : holdsLine s s.lowTicks = true) :
    returnAfter s s.lowTicks = finalReturn s s.lowTicks (s.cfg.tR0Ext + 1) := by
  simp only [returnAfter, highAfter, finalReturn, h, if_true]
  split <;> omega

theorem le_returnAfter (hx : s.cfg.tR0Ext + 1 < s.cfg.tRstMin) : s.lowTicks ≤ returnAfter s s.lowTicks := by
  cases h : holdsLine s s.lowTicks with
  | false =>
    rw [returnAfter_of_released h, finalReturn]
    split <;> omega
  | true =>
    rw [returnAfter_of_hold hx h, finalReturn]
    split <;> omega

/-- The ticks of a pass from the end of its first action. -/
def ticksOfPass (s : State) (unclear : Bool) : State :=
  tickList (masterDrive s.lowTicks 2 (returnAfter s s.lowTicks))
    (endOfTick (decide (1 < s.lowTicks)) (firstAction (midPass s (.entry s.session unclear s.lowTicks))))

theorem ticksOfPass_armed (hs : PulseReady s) (hx : s.cfg.tR0Ext + 1 < s.cfg.tRstMin)
    (ha : s.session.read0Armed = true) (unclear : Bool) :
    ticksOfPass s unclear = armedPass s.cfg.skip (bandOf s.cfg s.lowTicks) s := by
  obtain ⟨-, h1, h2, h3, -⟩ := (configLegal_iff s.cfg).1 hs.legal
  have hhold (hk : ¬(s.cfg.skip = true ∧ s.lowTicks = 0)) :
      ticksOfPass s unclear = finalised s (readDelivered .read0 s).session [.read0] (!decide (0 < s.lowTicks))
        s.lowTicks (s.cfg.tR0Ext + 1) := by
    rw [ticksOfPass, returnAfter_of_hold hx (holdsLine_iff.2 ⟨ha, hk⟩), endOfTick_firstAction_hold hs ha hk,
      tickList_hold hs hx]
  by_cases hl : s.lowTicks = 0
  · rw [armedPass_zero _ hl]
    cases hk : s.cfg.skip with
    | true =>
      have hreturn : returnAfter s 0 = 0 := by
        simp [returnAfter, highAfter, holdsLine, hk, Nat.ne_of_gt (show 0 < s.cfg.tRstMin by omega)]
      rw [if_pos rfl, glitchPass_eq hs, ticksOfPass, hl, hreturn]
      exact endOfTick_firstAction_glitch ha hk
    | false =>
      rw [if_neg Bool.false_ne_true, read0PhantomPass_eq hs (by omega), hhold (by simp [hk]), hl]
      rfl
  · rw [armedPass_pos hs.legal _ hl, read0Pass_eq hs, hhold fun h => hl h.2,
      decide_eq_true (Nat.pos_of_ne_zero hl), Bool.not_true]

theorem ticksOfPass_read (hs : PulseReady s) (ha : s.session.read0Armed = false)
    (he : s.session.expectingRead = true) (unclear : Bool) :
    ticksOfPass s unclear = readPass (bandOf s.cfg s.lowTicks) s := by
  have hr : 0 < s.cfg.tRstMin := by
    obtain ⟨-, h1, h2, h3, -⟩ := (configLegal_iff s.cfg).1 hs.legal
    omega
  rw [ticksOfPass, returnAfter_of_released (by simp [holdsLine, ha]), endOfTick_firstAction_read1 hs ha he,
    readPass_bandOf hs.legal, read1Pass_eq hs]
  exact tickList_finalisation ((readDelivered_timerOverflow .read1 s).trans hs.timerOverflow) hs.legal hr

theorem ticksOfPass_write (hs : PulseReady s) (ha : s.session.read0Armed = false)
    (he : s.session.expectingRead = false) (unclear : Bool) :
    ticksOfPass s unclear = writePass s.cfg.skip (bandOf s.cfg s.lowTicks) s := by
  rw [ticksOfPass, returnAfter_of_released (by simp [holdsLine, ha]), endOfTick_firstAction_write hs ha he]
  by_cases hl : s.lowTicks < s.cfg.tW0Min
  · have hreturn : finalReturn s s.lowTicks 0 = s.lowTicks := by
      obtain ⟨-, -, -, h3, -⟩ := (configLegal_iff s.cfg).1 hs.legal
      rw [finalReturn, if_neg (by omega), Nat.max_zero]
    rw [writePass_short hs.legal hl, hreturn, glitchPass_eq hs, write1Pass_eq hs]
    exact tickList_write_short hs hl
  · rw [writePass_long hs.legal (Nat.le_of_not_lt hl), write0Pass_eq hs]
    exact tickList_write_long hs (Nat.le_of_not_lt hl)

/-- Ticking through the waveform of a pulse is one event-level pass. -/
theorem tickList_pulseWaveform (hs : PulseReady s) (hx : s.cfg.tR0Ext + 1 < s.cfg.tRstMin) :
    tickList (pulseWaveform s s.lowTicks) s = eventPass (bandOf s.cfg s.lowTicks) s := by
  obtain ⟨unclear, hentry⟩ := tickList_entry hs s.lowTicks
  rw [pulseWaveform_eq (le_returnAfter hx), masterDrive_succ, masterDrive_succ, hentry]
  show ticksOfPass s unclear = _
  unfold eventPass
  cases ha : s.session.read0Armed with
  | true => exact ticksOfPass_armed hs hx ha unclear
  | false =>
    cases he : s.session.expectingRead with
    | true => exact ticksOfPass_read hs ha he unclear
    | false => exact ticksOfPass_write hs ha he unclear

end EventLevel

/-- Settles O51: the pass at tick level, cut into entry, first action, waits and return tick, ends in the state that the
pass at event level computes. -/
theorem tickLevelRealisesTheEventLevel : Obligations.TickLevelRealisesTheEventLevel := by
  intro s lowTicks hc hx ha hr hp ho hi
  have hs : PulseReady { s with lowTicks := lowTicks } := by
    simp only [pulseAccepted, Bool.and_eq_true, beq_iff_eq, Bool.not_eq_true'] at ha
    obtain ⟨⟨⟨⟨hphase, hpending⟩, henable⟩, hdrive⟩, hline⟩ := ha
    exact ⟨hc, hphase, hpending, henable, hdrive, hline, hr, hp, ho⟩
  rw [step_pulse (s := { s with input := [.pulse lowTicks] }) hc rfl ha]
  have h := tickList_pulseWaveform hs hx
  have hu : ({ s with lowTicks := lowTicks, input := [] } : State) = { s with lowTicks := lowTicks } := by
    rw [← hi]
  exact congrArg Host.Outcome.next ((congrArg (eventPass (bandOf s.cfg lowTicks)) hu).trans h.symm)

end Sys2Proof.Machine
end

/-! PROOF. The state at power-on, the end of a tick, a tick without the handler (10_state R36, R41, R42), and what every
operation and every step keeps (R33, R38, R40). -/
section

namespace Sys2Proof.Machine

open Sys2Proof.Safety

/-! ### Power-on -/

/-- The boot sequence leaves the power-on state, whatever the state before (70_reset_and_hazards R262). -/
theorem boot_eq_powerOn (low : Bool) (s : State) : boot low s = State.powerOn s.cfg s.mem low s.input := by
  cases low <;> rfl

theorem inv_powerOn {c : Config} {m : Memory} (low : Bool) (input : List Input) (hc : configLegal c = true)
    (hm : m.wf = true) : Inv (State.powerOn c m low input) where
  sound := ⟨hc, hm, oneHot_one, Nat.two_pow_pos _⟩
  order := ⟨nofun, nofun, nofun⟩
  phase := ⟨rfl, rfl, rfl, rfl, rfl⟩

/-- Settles O13. -/
theorem powerOnMeetsTheInvariants : Obligations.PowerOnMeetsTheInvariants :=
  ⟨fun _ _ low input hc hm => inv_powerOn low input hc hm, inv_powerOn false [] (by decide) rfl⟩

/-- Settles O16: the power-on state lists these values. -/
theorem powerOnLeavesTheListedValues : Obligations.PowerOnLeavesTheListedValues :=
  fun _ _ _ _ => ⟨rfl, rfl, rfl, rfl, rfl, rfl, rfl, rfl, rfl⟩

/-! ### The end of a tick -/

/-- Settles O52: the end of a tick computes the flag and samples the line, and leaves the driver and the enable. -/
theorem edgeDetectorRunsEveryTick : Obligations.EdgeDetectorRunsEveryTick :=
  fun _ _ => ⟨rfl, rfl, rfl, rfl, rfl, rfl⟩

theorem timerWraps_of_stopped {c : Config} {d : Device} (h : d.timerRunning = false) : timerWraps c d = false := by
  simp [timerWraps, h]

theorem tauNext_of_stopped {c : Config} {d : Device} (h : d.timerRunning = false) : tauNext c d = d.tau := by
  simp [tauNext, h]

/-- A tick in which the Timer does not wrap leaves the session state as the handler left it. -/
theorem endOfTick_session {s : State} (low : Bool) (h : timerWraps s.cfg s.device = false) :
    (endOfTick low s).session = s.session := by
  show { s.session with timerOverflow := s.session.timerOverflow || timerWraps s.cfg s.device } = s.session
  rw [h, Bool.or_false]

/-! ### A tick without the handler -/

/-- In P_WAIT, with no interrupt to take, the handler does nothing (60_exceptions R228). -/
theorem handlerTick_quiet {s : State} (hp : s.phase = .wait)
    (hq : s.device.irqPending = false ∨ s.device.irqEnable = false) : handlerTick s = s := by
  have hn : interruptTaken s = false := by
    rcases hq with h | h <;> simp [interruptTaken, h]
  simp [handlerTick, hp, hn]

/-- Settles O53: such a tick is the end of a tick alone. -/
theorem quietTickTouchesNoSessionState : Obligations.QuietTickTouchesNoSessionState := by
  intro s low hp hq
  have ht : tick low s = endOfTick low (onDevice (fun d => { d with debugStrobe := false }) s) :=
    congrArg (endOfTick low) (handlerTick_quiet (s := onDevice _ s) hp hq)
  rw [ht]
  exact ⟨rfl, fun hr => ⟨endOfTick_session low (timerWraps_of_stopped hr), tauNext_of_stopped hr⟩,
    hp, rfl, rfl, rfl, rfl, rfl, rfl, rfl⟩

/-! ### What every operation keeps -/

/-- What no row of the table changes, and the relations every row keeps: interrupts are not disabled, the Timer stays
below `2^TIMER_BITS`, the mask stays one-hot. -/
structure OperationKept (s t : State) : Prop where
  cfg : t.cfg = s.cfg
  mem : t.mem = s.mem
  input : t.input = s.input
  lowTicks : t.lowTicks = s.lowTicks
  irqEnable : s.device.irqEnable = true → t.device.irqEnable = true
  tau : s.device.tau < 2 ^ s.cfg.timerBits → t.device.tau < 2 ^ s.cfg.timerBits
  mask : OneHot s.session.bitMask → OneHot t.session.bitMask

theorem PassKept.toOperation {s t : State} (h : PassKept s t) : OperationKept s t :=
  ⟨h.cfg, h.mem, h.input, h.lowTicks, fun e => h.irqEnable.trans e, h.tau, h.mask⟩

/-- A statement of the handler, called by itself. -/
theorem Kept.toOperation {s t : State} (h : Kept s t) : OperationKept s t := h.toPass.toOperation

/-- An operation on the session state alone. -/
theorem operationKept_onSession {f : Session → Session} {s : State}
    (h : OneHot s.session.bitMask → OneHot (f s.session).bitMask) : OperationKept s (onSession f s) :=
  (kept_onSession s h).toOperation

theorem operationKept_returningBit {f : Session → Bool × Session} {s : State}
    (h : OneHot s.session.bitMask → OneHot (f s.session).2.bitMask) : OperationKept s (returningBit f s) :=
  ⟨rfl, rfl, rfl, rfl, id, id, h⟩

theorem discoverBit_oneHot {m : Memory} {x : Session} (h : OneHot x.bitMask) :
    OneHot (x.discoverBit m).2.bitMask := by
  unfold Session.discoverBit
  split <;> exact h

theorem onReadBitRequested_oneHot {m : Memory} {x : Session} (h : OneHot x.bitMask) :
    OneHot (x.onReadBitRequested m).2.bitMask := by
  rcases onReadBitRequested_cases m x with ⟨_, e⟩ | ⟨_, _, e⟩ | ⟨_, _, e⟩ | ⟨_, e⟩ <;> rw [e]
  · exact advanceCursor_oneHot h
  · exact h
  · exact h
  · exact h

theorem discoverWrite_oneHot {m : Memory} {bit : Bool} {x : Session} (h : OneHot x.bitMask) :
    OneHot (x.discoverWrite m bit).bitMask := by
  unfold Session.discoverWrite
  split
  · exact switchToReadMode_oneHot (advanceCursor_oneHot h)
  · exact h

/-- Every row of the table, in every state: its next state, and what it keeps. -/
theorem exec_kept (i : Instr) (s : State) : ∃ t, exec i s = .next t ∧ OperationKept s t := by
  cases i with
  | glitch b => exact ⟨_, rfl, (passKept_glitchPass s).toOperation⟩
  | write1Short b => exact ⟨_, rfl, (passKept_write1Pass s).toOperation⟩
  | write1BandB k => exact ⟨_, rfl, (passKept_write1Pass s).toOperation⟩
  | write0 k => exact ⟨_, rfl, (passKept_write0Pass false s).toOperation⟩
  | write0Reset k => exact ⟨_, rfl, (passKept_write0Pass true s).toOperation⟩
  | read1 k b => exact ⟨_, rfl, (passKept_read1Pass false s).toOperation⟩
  | read1Reset k => exact ⟨_, rfl, (passKept_read1Pass true s).toOperation⟩
  | glitchFast => exact ⟨_, rfl, (passKept_glitchPass s).toOperation⟩
  | read0BandZ => exact ⟨_, rfl, (passKept_read0PhantomPass s).toOperation⟩
  | read0BandA k => exact ⟨_, rfl, (passKept_read0Pass false s).toOperation⟩
  | read0BandBC k b => exact ⟨_, rfl, (passKept_read0Pass false s).toOperation⟩
  | read0Reset k => exact ⟨_, rfl, (passKept_read0Pass true s).toOperation⟩
  | armedNotER k b => exact ⟨_, rfl, (passKept_armedPass k b s).toOperation⟩
  | readIdentity => exact ⟨_, rfl, operationKept_onSession fun _ => startReport_oneHot s.mem s.session⟩
  | discover => exact ⟨_, rfl, operationKept_onSession fun _ => startDiscover_oneHot s.mem s.session⟩
  | cmdOther c => exact ⟨_, rfl, operationKept_onSession id⟩
  | id64 => exact ⟨_, rfl, (passKept_runSlots _ _ s).toOperation⟩
  | triplet w => exact ⟨_, rfl, (passKept_runSlots _ _ s).toOperation⟩
  | onReset => exact ⟨_, rfl, (kept_engineReset s).toOperation⟩
  | onWriteBit bit => exact ⟨_, rfl, operationKept_onSession onWriteBit_oneHot⟩
  | onWriteBitResetReceived bit => exact ⟨_, rfl, operationKept_onSession accumulate_oneHot⟩
  | onWriteBitDiscover bit => exact ⟨_, rfl, operationKept_onSession discoverWrite_oneHot⟩
  | onWriteBitIdleOrReportIdentity bit => exact ⟨_, rfl, (Kept.same s).toOperation⟩
  | onReadBitRequested => exact ⟨_, rfl, operationKept_returningBit onReadBitRequested_oneHot⟩
  | onReadBitReportIdentity => exact ⟨_, rfl, operationKept_returningBit advanceCursor_oneHot⟩
  | onReadBitDiscover => exact ⟨_, rfl, operationKept_returningBit discoverBit_oneHot⟩
  | onReadBitIdleOrResetReceived => exact ⟨_, rfl, operationKept_returningBit id⟩
  | switchToReadMode => exact ⟨_, rfl, operationKept_onSession switchToReadMode_oneHot⟩
  | deferredSwitchToWrite => exact ⟨_, rfl, operationKept_onSession id⟩
  | advanceCursor => exact ⟨_, rfl, operationKept_onSession advanceCursor_oneHot⟩
  | rearm => exact ⟨_, rfl, operationKept_onSession rearm_oneHot⟩
  | resetFinalisation =>
    refine ⟨_, rfl, ?_⟩
    split
    · exact (kept_finalisationPoll .same s).toOperation
    · exact (Kept.same s).toOperation
  | reset => exact ⟨_, rfl, (kept_resetSequence s).toOperation⟩
  | handlerExit => exact ⟨_, rfl, (kept_exitHandler s).toOperation⟩
  | setInputMode => exact ⟨_, rfl, (kept_setInputMode s).toOperation⟩
  | setDrivenLow => exact ⟨_, rfl, (kept_setDrivenLow s).toOperation⟩
  | readLevel => exact ⟨_, rfl, rfl, rfl, rfl, rfl, id, id, id⟩
  | timerStart => exact ⟨_, rfl, rfl, rfl, rfl, rfl, id, id, id⟩
  | timerStop => exact ⟨_, rfl, rfl, rfl, rfl, rfl, id, id, id⟩
  | timerResetToZero => exact ⟨_, rfl, (kept_timerReset s).toOperation⟩
  | timerReadTicks => exact ⟨_, rfl, rfl, rfl, rfl, rfl, id, id, id⟩
  | timerOverflowIndicator => exact ⟨_, rfl, operationKept_onSession id⟩
  | configureFallingEdge src => exact ⟨_, rfl, (Kept.same s).toOperation⟩
  | clearPendingFlag => exact ⟨_, rfl, (kept_clearPending s).toOperation⟩
  | enableGlobalInterrupts => exact ⟨_, rfl, rfl, rfl, rfl, rfl, fun _ => rfl, id, id⟩

theorem runBytes_kept {bytes : List Byte} {s t : State} (h : runBytes bytes s = .next t) : OperationKept s t := by
  obtain ⟨i, -, hi⟩ := runBytes_next h
  obtain ⟨u, hu, hk⟩ := exec_kept i s
  cases hu.symm.trans hi
  exact hk

/-! ### What every step keeps -/

/-- What a step of any kind keeps. -/
structure StepKept (s t : State) : Prop where
  cfg : t.cfg = s.cfg
  mem : t.mem = s.mem
  tau : s.device.tau < 2 ^ s.cfg.timerBits → t.device.tau < 2 ^ s.cfg.timerBits
  mask : OneHot s.session.bitMask → OneHot t.session.bitMask

theorem OperationKept.toStep {s t : State} (h : OperationKept s t) : StepKept s t := ⟨h.cfg, h.mem, h.tau, h.mask⟩

theorem tick_kept (low : Bool) (s : State) : StepKept s (tick low s) := by
  obtain ⟨hcfg, hmem, -⟩ := tick_frame low s
  exact ⟨hcfg, hmem, tick_tau low, tick_oneHot low⟩

theorem boot_kept (low : Bool) (s : State) : StepKept s (boot low s) :=
  ⟨rfl, rfl, fun _ => Nat.two_pow_pos _, fun _ => oneHot_one⟩

/-- Taking an input from the queue writes none of the registers concerned. -/
theorem stepKept_of_queue {s t : State} {lowTicks : Nat} {input : List Input}
    (h : StepKept { s with lowTicks := lowTicks, input := input } t) : StepKept s t :=
  ⟨h.cfg, h.mem, h.tau, h.mask⟩

/-- Every kind of step: a tick, a pass, an operation word, power-on. -/
theorem step_kept {s t : State} (h : step s = .next t) : StepKept s t := by
  obtain ⟨-, ⟨-, rfl⟩ | ⟨low, rest, -, rfl⟩ | ⟨n, rest, -, -, ht⟩ | ⟨bytes, rest, -, ht⟩ | ⟨low, rest, -, rfl⟩⟩ :=
    step_cases h
  · exact tick_kept false s
  · exact stepKept_of_queue (tick_kept low { s with input := rest })
  · exact stepKept_of_queue (runBytes_kept ht).toStep
  · exact stepKept_of_queue (runBytes_kept ht).toStep
  · exact stepKept_of_queue (boot_kept low { s with input := rest })

theorem StepKept.sound {s t : State} (h : StepKept s t) (hs : Sound s) : Sound t where
  legal := by rw [h.cfg]; exact hs.legal
  store := by rw [h.mem]; exact hs.store
  mask := h.mask hs.mask
  timer := by rw [h.cfg]; exact h.tau hs.timer

/-- Settles O14: every step keeps the store itself. -/
theorem noStepWritesIdentityOrConfiguration : Obligations.NoStepWritesIdentityOrConfiguration := by
  intro s t h
  have hk := step_kept h
  exact ⟨fun a => by rw [hk.mem], hk.mem, hk.cfg⟩

/-- Settles O11. -/
theorem everyStepKeepsTheStateSound : Obligations.EveryStepKeepsTheStateSound :=
  fun _ _ hs h => (step_kept h).sound hs

end Sys2Proof.Machine
end

/-! PROOF. The invariants of 10_state R40 are inductive (O12): what the protocol engine keeps of the order among CS, ER,
DSW and INV, what one tick of the handler leaves at each position, and what a whole pass leaves. -/
section

namespace Sys2Proof.Machine

open Sys2Proof.Safety

/-! ### The order among CS, ER, DSW and INV (R40 e, f, g) -/

theorem sessionOrder_congr {x y : Session} (h : SessionOrder x) (hc : y.commandState = x.commandState)
    (he : y.expectingRead = x.expectingRead) (hd : y.deferredSwitchToWrite = x.deferredSwitchToWrite)
    (hi : y.invertNextReadBit = x.invertNextReadBit) : SessionOrder y where
  resetReceived := by rw [hc, he, hd, hi]; exact h.resetReceived
  reportIdentity := by rw [hc, he, hd]; exact h.reportIdentity
  deferred := by rw [hc, he, hd, hi]; exact h.deferred

theorem sessionOrder_of_idle {x : Session} (hc : x.commandState = .idle) (hd : x.deferredSwitchToWrite = false) :
    SessionOrder x := by
  constructor <;> simp [hc, hd]

theorem sessionOrder_of_resetReceived {x : Session} (hc : x.commandState = .resetReceived)
    (he : x.expectingRead = false) (hd : x.deferredSwitchToWrite = false) (hi : x.invertNextReadBit = false) :
    SessionOrder x := by
  constructor <;> simp [hc, he, hd, hi]

theorem sessionOrder_of_reportIdentity {x : Session} (hc : x.commandState = .reportIdentity)
    (he : x.expectingRead = true) (hd : x.deferredSwitchToWrite = false) : SessionOrder x := by
  constructor <;> simp [hc, he, hd]

theorem sessionOrder_of_discover {x : Session} (hc : x.commandState = .discover)
    (hd : x.deferredSwitchToWrite = true → x.expectingRead = true ∧ x.invertNextReadBit = false) :
    SessionOrder x where
  resetReceived h := by rw [hc] at h; cases h
  reportIdentity h := by rw [hc] at h; cases h
  deferred h := ⟨hc, hd h⟩

/-- In write mode no switch to write mode is deferred (R40 g). -/
theorem notDeferred_of_writeMode {x : Session} (h : SessionOrder x) (he : x.expectingRead = false) :
    x.deferredSwitchToWrite = false := by
  cases hd : x.deferredSwitchToWrite with
  | false => rfl
  | true =>
    obtain ⟨-, her, -⟩ := h.deferred hd
    cases he.symm.trans her

theorem prepareReadBit_order {m : Memory} {x : Session} (h : SessionOrder x) (he : x.expectingRead = true)
    (hd : x.deferredSwitchToWrite = false) : SessionOrder (x.prepareReadBit m) := by
  rcases prepareReadBit_cases m x with ⟨hc, e⟩ | ⟨hc, -, e⟩ | ⟨hc, -, e⟩ | ⟨-, e⟩ <;> rw [e]
  · rcases advanceCursor_commandState x with ha | ha
    · exact sessionOrder_of_reportIdentity (ha.trans hc) (by simp [he]) (by simp [hd])
    · exact sessionOrder_of_idle ha (by simp [hd])
  · exact sessionOrder_of_discover hc fun h' => by rw [hd] at h'; cases h'
  · exact sessionOrder_of_discover hc fun _ => ⟨he, rfl⟩
  · exact sessionOrder_congr h rfl rfl rfl rfl

theorem switchToReadMode_order {m : Memory} {x : Session} (hc : x.commandState ≠ .resetReceived) :
    SessionOrder (x.switchToReadMode m) :=
  prepareReadBit_order (x := { x with expectingRead := true, deferredSwitchToWrite := false })
    ⟨fun h => absurd h hc, fun _ => ⟨rfl, rfl⟩, nofun⟩ rfl rfl

/-- A rearm after a read slot (R126). -/
theorem rearm_order {m : Memory} {x : Session} (h : SessionOrder x) (he : x.expectingRead = true) :
    SessionOrder (x.rearm m) := by
  rcases rearm_cases m x with ⟨hd, e⟩ | ⟨hd, e⟩ <;> rw [e]
  · exact sessionOrder_of_discover (h.deferred hd).1 nofun
  · exact prepareReadBit_order h he hd

theorem dispatch_order {m : Memory} {disc : Byte} {x : Session} (hd : x.deferredSwitchToWrite = false) :
    SessionOrder (x.dispatch m disc) := by
  rcases dispatch_cases m disc x with ⟨_, e⟩ | ⟨_, _, e⟩ | ⟨_, _, e⟩ <;> rw [e]
  · exact switchToReadMode_order nofun
  · exact switchToReadMode_order nofun
  · exact sessionOrder_of_idle rfl hd

theorem accumulate_order {m : Memory} {disc : Byte} {bit : Bool} {x : Session} (h : SessionOrder x)
    (hc : x.commandState = .resetReceived) : SessionOrder (x.accumulate m disc bit) := by
  obtain ⟨-, hd, -⟩ := h.resetReceived hc
  unfold Session.accumulate
  dsimp only
  split
  · exact dispatch_order hd
  · exact sessionOrder_congr h rfl rfl rfl rfl

/-- A bit written in write mode (R162). -/
theorem onWriteBit_order {m : Memory} {disc : Byte} {bit : Bool} {x : Session} (h : SessionOrder x)
    (he : x.expectingRead = false) : SessionOrder (x.onWriteBit m disc bit) := by
  rcases onWriteBit_cases m disc bit x with ⟨hc, e⟩ | ⟨hc, -, e⟩ | ⟨-, -, e⟩ | ⟨-, e⟩ <;> rw [e]
  · exact accumulate_order h hc
  · refine switchToReadMode_order ?_
    rcases advanceCursor_commandState x with ha | ha <;> rw [ha]
    · rw [hc]; exact nofun
    · exact nofun
  · have hd := notDeferred_of_writeMode h he
    exact sessionOrder_of_idle rfl hd
  · exact h

/-! ### A pass up to its end -/

/-- What holds throughout a pass but for the Read-0 hold and the Reset sequence. -/
structure Passing (s : State) : Prop where
  order : SessionOrder s.session
  timerOverflow : s.session.timerOverflow = false
  driveLow : s.device.driveLow = false

theorem passing_of_atRest {s : State} (ho : SessionOrder s.session) (h : AtRest s) : Passing s :=
  ⟨ho, h.timerOverflow, h.driveLow⟩

theorem Passing.clearPossibleReset {s : State} (h : Passing s) :
    Passing (onSession (fun x => { x with possibleReset := false }) s) :=
  ⟨sessionOrder_congr h.order rfl rfl rfl rfl, h.timerOverflow, h.driveLow⟩

theorem write1Delivered_timerOverflow (s : State) :
    (write1Delivered s).session.timerOverflow = s.session.timerOverflow :=
  (onWriteBit_flags s.mem s.cfg.cmdDiscover true { s.session with pendingBitValue := true }).timerOverflow

theorem Passing.write1Delivered {s : State} (h : Passing s) (he : s.session.expectingRead = false) :
    Passing (write1Delivered s) where
  order := onWriteBit_order (x := { s.session with pendingBitValue := true })
    (sessionOrder_congr h.order rfl rfl rfl rfl) he
  timerOverflow := (write1Delivered_timerOverflow s).trans h.timerOverflow
  driveLow := h.driveLow

theorem Passing.write0Delivered {s : State} (h : Passing s) (he : s.session.expectingRead = false) :
    Passing (write0Delivered s) where
  order := onWriteBit_order (x := { s.session with possibleReset := true, pendingBitValue := false })
    (sessionOrder_congr h.order rfl rfl rfl rfl) he
  timerOverflow := (write0Delivered_timerOverflow s).trans h.timerOverflow
  driveLow := h.driveLow

theorem Passing.readDelivered {s : State} (h : Passing s) (e : BusEvent) (he : s.session.expectingRead = true) :
    Passing (readDelivered e s) where
  order := sessionOrder_congr (rearm_order (m := s.mem) h.order he) rfl rfl rfl rfl
  timerOverflow := (readDelivered_timerOverflow e s).trans h.timerOverflow
  driveLow := h.driveLow

/-! ### The end of a pass -/

/-- What the handler leaves when it returns (R40 c, d, h). -/
structure Rested (s : State) : Prop where
  order : SessionOrder s.session
  phase : s.phase = .wait
  atRest : AtRest s

theorem Rested.phaseOrder {s : State} (h : Rested s) : PhaseOrder s := by
  unfold PhaseOrder
  rw [h.phase]
  exact h.atRest

theorem Passing.exitHandler {s : State} (h : Passing s) (hp : s.session.possibleReset = false) :
    Rested (exitHandler s) :=
  ⟨sessionOrder_congr h.order rfl rfl rfl rfl, rfl, hp, h.timerOverflow, rfl, h.driveLow, rfl⟩

/-- A glitch leaves the session state, and with it the flag that the pass before recorded (R120, R121). -/
theorem Passing.exitGlitch {s : State} (h : Passing s) (hp : s.session.possibleReset = false)
    (ha : s.session.read0Armed = armedNext s.session) : Rested (exitGlitch s) :=
  ⟨h.order, rfl, hp, h.timerOverflow, ha, h.driveLow, rfl⟩

/-! ### What the handler leaves at the end of its statements in a tick -/

/-- The count up to which the handler waits at a position, where it waits for a count (R113). -/
def waitLimit (c : Config) : Phase → Option Nat
  | .wPoll => some c.tW0Min
  | .r0Hold => some c.tR0Ext
  | .rstPoll => some c.tRstMin
  | .idleHold => some c.tIdle
  | .presence => some c.tPres
  | .wait => none
  | .lat => none
  | .relWait => none

/-- No wait reaches the Timer's wrap (00_scope R8). -/
theorem waitLimit_lt {c : Config} {p : Phase} {n : Nat} (hc : configLegal c = true) (h : waitLimit c p = some n) :
    n < 2 ^ c.timerBits := by
  obtain ⟨-, -, -, hw, hrst, -, hr0, -, hidle, -, hpres, -⟩ := (configLegal_iff c).1 hc
  cases p with
  | wPoll => cases h; omega
  | r0Hold => cases h; omega
  | rstPoll => cases h; exact hrst
  | idleHold => cases h; exact hidle
  | presence => cases h; exact hpres
  | wait => cases h
  | lat => cases h
  | relWait => cases h

/-- The invariants before the end of a tick: where the handler waits for a count, the count is not reached. -/
structure TickDone (s : State) : Prop where
  order : SessionOrder s.session
  phase : PhaseOrder s
  below : ∀ n, waitLimit s.cfg s.phase = some n → s.device.tau < n

theorem Rested.tickDone {s : State} (h : Rested s) : TickDone s :=
  ⟨h.order, h.phaseOrder, fun n hn => by rw [h.phase] at hn; cases hn⟩

theorem tickDone_waitIn {s : State} {p : Phase} {n : Nat} (ho : SessionOrder s.session)
    (hp : PhaseOrder (waitIn p s)) (hl : waitLimit s.cfg p = some n) (hn : s.device.tau < n) :
    TickDone (waitIn p s) :=
  ⟨ho, hp, fun _ h => by cases hl.symm.trans h; exact hn⟩

/-! ### The Reset sequence (R128) -/

/-- The block between `onReset()` and the end of the presence pulse. -/
structure Resetting (drive : Bool) (s : State) : Prop where
  order : SessionOrder s.session
  possibleReset : s.session.possibleReset = false
  commandState : s.session.commandState = .resetReceived
  driveLow : s.device.driveLow = drive
  timerRunning : s.device.timerRunning = true

theorem Resetting.presencePoll {s : State} (h : Resetting true s) : TickDone (presencePoll s) := by
  rcases presencePoll_cases s with ⟨hn, e⟩ | ⟨-, e⟩ <;> rw [e]
  · exact tickDone_waitIn h.order ⟨h.possibleReset, h.commandState, h.driveLow, h.timerRunning, Nat.le_of_lt hn⟩ rfl hn
  · have hp : Passing (onDevice Device.clearPending
        (onSession (fun x => { x with timerOverflow := false }) (onDevice Device.setInputMode s))) :=
      ⟨sessionOrder_congr h.order rfl rfl rfl rfl, rfl, rfl⟩
    exact (hp.exitHandler h.possibleReset).tickDone

theorem Resetting.idlePoll {s : State} (h : Resetting false s) : TickDone (idlePoll s) := by
  rcases idlePoll_cases s with ⟨hn, e⟩ | ⟨-, e⟩ <;> rw [e]
  · exact tickDone_waitIn h.order ⟨h.possibleReset, h.commandState, h.driveLow, h.timerRunning, Nat.le_of_lt hn⟩ rfl hn
  · have hr : Resetting true (onDevice Device.timerReset (onDevice Device.setDrivenLow s)) :=
      ⟨h.order, h.possibleReset, h.commandState, rfl, h.timerRunning⟩
    exact hr.presencePoll

theorem Resetting.releasePoll {s : State} (h : Resetting false s) : TickDone (releasePoll s) := by
  rcases releasePoll_cases s with ⟨-, e⟩ | ⟨-, e⟩ <;> rw [e]
  · exact ⟨h.order, ⟨h.possibleReset, h.commandState, h.driveLow, h.timerRunning⟩, nofun⟩
  · have hr : Resetting false (onDevice Device.timerReset s) :=
      ⟨h.order, h.possibleReset, h.commandState, h.driveLow, h.timerRunning⟩
    exact hr.idlePoll

theorem onReset_order (x : Session) : SessionOrder x.onReset := sessionOrder_of_resetReceived rfl rfl rfl rfl

theorem resetSequence_done {s : State} (hd : s.device.driveLow = false) (hr : s.device.timerRunning = true) :
    TickDone (resetSequence s) :=
  have h : Resetting false (engineReset (emit .reset s)) := ⟨onReset_order _, rfl, rfl, hd, hr⟩
  h.releasePoll

/-! ### Classification at tick level -/

theorem Passing.finalisationPoll {s : State} (h : Passing s) (hr : s.device.timerRunning = true)
    (hp : s.session.possibleReset = true) : TickDone (finalisationPoll Machine.exitHandler s) := by
  rcases finalisationPoll_cases Machine.exitHandler s with ⟨-, e⟩ | ⟨-, -, -, e⟩ | ⟨-, hn, -, e⟩ <;> rw [e]
  · exact resetSequence_done h.driveLow hr
  · exact (h.clearPossibleReset.exitHandler rfl).tickDone
  · exact tickDone_waitIn h.order ⟨hp, h.timerOverflow, h.driveLow, hr, Nat.le_of_lt hn⟩ rfl hn

theorem Passing.afterClassification {s : State} (h : Passing s) (hr : s.device.timerRunning = true) :
    TickDone (afterClassification s) := by
  cases hp : s.session.possibleReset with
  | false => rw [afterClassification_of_clear hp]; exact (h.exitHandler hp).tickDone
  | true => rw [afterClassification_of_set hp]; exact h.finalisationPoll hr hp

theorem Passing.writePoll {s : State} (h : Passing s) (hr : s.device.timerRunning = true)
    (hp : s.session.possibleReset = false) (he : s.session.expectingRead = false)
    (ha : s.session.read0Armed = false) : TickDone (writePoll s) := by
  rcases writePoll_cases s with ⟨-, e⟩ | ⟨-, -, -, -, e⟩ | ⟨-, -, -, e⟩ | ⟨hn, -, e⟩ <;> rw [e]
  · exact (h.write0Delivered he).afterClassification hr
  · exact (h.exitGlitch hp (by simp [armedNext, ha, he])).tickDone
  · exact (h.write1Delivered he).afterClassification hr
  · exact tickDone_waitIn h.order ⟨hp, h.timerOverflow, he, ha, h.driveLow, hr, Nat.le_of_lt hn⟩ rfl hn

/-- The Read-0 hold, by what it leaves when the line driver is released (R125). -/
theorem holdPoll_done {s : State} (h : Passing (onDevice Device.setInputMode s)) (hd : s.device.driveLow = true)
    (hr : s.device.timerRunning = true) (hp : s.session.possibleReset = false)
    (he : s.session.expectingRead = true) : TickDone (holdPoll s) := by
  rcases holdPoll_cases s with ⟨hn, e⟩ | ⟨-, e⟩ <;> rw [e]
  · exact tickDone_waitIn h.order ⟨hp, h.timerOverflow, he, hd, hr, Nat.le_of_lt hn⟩ rfl hn
  · exact (h.readDelivered .read0 he).afterClassification hr

theorem Passing.fastPath {s : State} (h : Passing s) (hr : s.device.timerRunning = true)
    (hp : s.session.possibleReset = false) (he : s.session.expectingRead = true)
    (ha : s.session.read0Armed = armedNext s.session) : TickDone (fastPath s) := by
  unfold Machine.fastPath
  split
  · exact (h.exitGlitch hp ha).tickDone
  · refine holdPoll_done ⟨h.order, h.timerOverflow, rfl⟩ ?_ ?_ hp he
    · cases s.cfg.debugStrobe <;> rfl
    · cases s.cfg.debugStrobe <;> exact hr

/-- The flag that is set tells of read mode (R35). -/
theorem expectingRead_of_armed {s : State} (h : AtRest s) (ha : s.session.read0Armed = true) :
    s.session.expectingRead = true := by
  have harm := h.armed
  rw [ha] at harm
  exact (Bool.and_eq_true_iff.mp harm.symm).1

theorem firstAction_done {s : State} (ho : SessionOrder s.session) (h : AtRest s) : TickDone (firstAction s) := by
  have h1 : Passing (onDevice (fun d => d.timerReset.timerStart) { s with latCount := 0 }) :=
    ⟨ho, h.timerOverflow, h.driveLow⟩
  rcases firstAction_cases s with ⟨ha, e⟩ | ⟨-, he, e⟩ | ⟨ha, he, e⟩ <;> rw [e]
  · have he := expectingRead_of_armed h ha
    exact h1.fastPath rfl h.possibleReset he h.armed
  · exact (h1.readDelivered .read1 he).afterClassification rfl
  · exact h1.writePoll rfl h.possibleReset he ha

/-! ### One tick -/

/-- `PhaseOrder` reads these registers alone. -/
theorem phaseOrder_congr {s t : State} (h : PhaseOrder s) (hcfg : t.cfg = s.cfg) (hx : t.session = s.session)
    (hp : t.phase = s.phase) (hd : t.device.driveLow = s.device.driveLow)
    (hr : t.device.timerRunning = s.device.timerRunning) (ht : t.device.tau = s.device.tau) : PhaseOrder t := by
  have hrest : AtRest s → AtRest t := fun a =>
    ⟨by rw [hx]; exact a.possibleReset, by rw [hx]; exact a.timerOverflow, by rw [hx]; exact a.armed,
      hd.trans a.driveLow, hr.trans a.timerRunning⟩
  unfold PhaseOrder at h ⊢
  rw [hp, hx, hcfg, hd, hr, ht]
  cases hphase : s.phase <;> rw [hphase] at h
  case wait => exact hrest h
  case lat => exact hrest h
  all_goals exact h

theorem enterHandler_done {s : State} (ho : SessionOrder s.session) (h : AtRest s) : TickDone (enterHandler s) := by
  have h1 : AtRest (takeInterrupt s) := ⟨h.possibleReset, h.timerOverflow, h.armed, h.driveLow, h.timerRunning⟩
  rcases enterHandler_cases s with ⟨-, e⟩ | ⟨-, e⟩ <;> rw [e]
  · exact firstAction_done ho h1
  · exact ⟨ho, h1, nofun⟩

theorem latencyPoll_done {s : State} (ho : SessionOrder s.session) (h : AtRest s) (hp : s.phase = .lat) :
    TickDone (latencyPoll s) := by
  have h1 : AtRest { s with latCount := s.latCount + 1 } :=
    ⟨h.possibleReset, h.timerOverflow, h.armed, h.driveLow, h.timerRunning⟩
  rcases latencyPoll_cases s with ⟨-, e⟩ | ⟨-, e⟩ <;> rw [e]
  · exact firstAction_done ho h1
  · refine ⟨ho, ?_, fun n hn => ?_⟩
    · simpa only [PhaseOrder, hp] using h1
    · rw [show waitLimit s.cfg s.phase = none by rw [hp]; rfl] at hn
      cases hn

/-- The handler's statements of a tick, from each of its positions. -/
theorem handlerTick_done {s : State} (ho : SessionOrder s.session) (h : PhaseOrder s) : TickDone (handlerTick s) := by
  unfold handlerTick
  unfold PhaseOrder at h
  cases hp : s.phase <;> rw [hp] at h <;> dsimp only at h ⊢
  case wait =>
    split
    · exact enterHandler_done ho h
    · exact (Rested.mk ho hp h).tickDone
  case lat => exact latencyPoll_done ho h hp
  case wPoll =>
    obtain ⟨hpr, hto, her, harm, hdrive, hrun, -⟩ := h
    exact (Passing.mk ho hto hdrive).writePoll hrun hpr her harm
  case r0Hold =>
    obtain ⟨hpr, hto, her, hdrive, hrun, -⟩ := h
    exact holdPoll_done ⟨ho, hto, rfl⟩ hdrive hrun hpr her
  case rstPoll =>
    obtain ⟨hpr, hto, hdrive, hrun, -⟩ := h
    exact (Passing.mk ho hto hdrive).finalisationPoll hrun hpr
  case relWait =>
    obtain ⟨hpr, hcs, hdrive, hrun⟩ := h
    exact (Resetting.mk ho hpr hcs hdrive hrun).releasePoll
  case idleHold =>
    obtain ⟨hpr, hcs, hdrive, hrun, -⟩ := h
    exact (Resetting.mk ho hpr hcs hdrive hrun).idlePoll
  case presence =>
    obtain ⟨hpr, hcs, hdrive, hrun, -⟩ := h
    exact (Resetting.mk ho hpr hcs hdrive hrun).presencePoll

theorem timerWraps_of_lt {c : Config} {d : Device} (h : d.tau + 1 < 2 ^ c.timerBits) : timerWraps c d = false := by
  simp [timerWraps, h]

theorem tauNext_le (c : Config) (d : Device) : tauNext c d ≤ d.tau + 1 := by
  unfold tauNext
  split
  · exact Nat.mod_le _ _
  · exact Nat.le_succ _

/-- The count at the end of a tick in which the handler waits for it: within the limit, and without a wrap. -/
theorem TickDone.endOfTick_tau {s : State} {n : Nat} (h : TickDone s) (hc : configLegal s.cfg = true) (low : Bool)
    (hn : waitLimit s.cfg s.phase = some n) :
    (endOfTick low s).session = s.session ∧ (endOfTick low s).device.tau ≤ n := by
  have hlt := h.below n hn
  have hwrap := waitLimit_lt hc hn
  exact ⟨endOfTick_session low (timerWraps_of_lt (by omega)), (tauNext_le s.cfg s.device).trans hlt⟩

theorem TickDone.endOfTick_phaseOrder {s : State} (h : TickDone s) (hc : configLegal s.cfg = true) (low : Bool) :
    PhaseOrder (endOfTick low s) := by
  have hstopped : AtRest s → AtRest (endOfTick low s) := fun a =>
    ⟨a.possibleReset, by rw [endOfTick_session low (timerWraps_of_stopped a.timerRunning)]; exact a.timerOverflow,
      a.armed, a.driveLow, a.timerRunning⟩
  have htimed {n : Nat} := h.endOfTick_tau (n := n) hc low
  have hphase := h.phase
  unfold PhaseOrder at hphase ⊢
  rw [show (endOfTick low s).phase = s.phase from rfl]
  cases hp : s.phase <;> rw [hp] at hphase htimed <;> dsimp only at hphase ⊢
  case wait => exact hstopped hphase
  case lat => exact hstopped hphase
  case wPoll =>
    obtain ⟨hx, ht⟩ := htimed rfl
    obtain ⟨hpr, hto, her, harm, hdrive, hrun, -⟩ := hphase
    exact ⟨hpr, by rw [hx]; exact hto, her, harm, hdrive, hrun, ht⟩
  case r0Hold =>
    obtain ⟨hx, ht⟩ := htimed rfl
    obtain ⟨hpr, hto, her, hdrive, hrun, -⟩ := hphase
    exact ⟨hpr, by rw [hx]; exact hto, her, hdrive, hrun, ht⟩
  case rstPoll =>
    obtain ⟨hx, ht⟩ := htimed rfl
    obtain ⟨hpr, hto, hdrive, hrun, -⟩ := hphase
    exact ⟨hpr, by rw [hx]; exact hto, hdrive, hrun, ht⟩
  case relWait => exact hphase
  case idleHold =>
    obtain ⟨hpr, hcs, hdrive, hrun, -⟩ := hphase
    exact ⟨hpr, hcs, hdrive, hrun, (htimed rfl).2⟩
  case presence =>
    obtain ⟨hpr, hcs, hdrive, hrun, -⟩ := hphase
    exact ⟨hpr, hcs, hdrive, hrun, (htimed rfl).2⟩

/-- A tick, from any position of the handler and whatever the master does. -/
theorem tick_inv {s : State} (low : Bool) (h : Inv s) : Inv (tick low s) := by
  have hd : TickDone (handlerTick (onDevice (fun d => { d with debugStrobe := false }) s)) :=
    handlerTick_done h.order (phaseOrder_congr h.phase rfl rfl rfl rfl rfl rfl)
  have hc : configLegal (handlerTick (onDevice (fun d => { d with debugStrobe := false }) s)).cfg = true := by
    rw [(kept_handlerTick _).cfg]
    exact h.sound.legal
  exact ⟨(tick_kept low s).sound h.sound, sessionOrder_congr hd.order rfl rfl rfl rfl,
    hd.endOfTick_phaseOrder hc low⟩

/-! ### A whole pass at event level (40_pulse_classifier R130) -/

theorem Passing.beginPass {s : State} (h : Passing s) : Passing (beginPass s) :=
  ⟨h.order, h.timerOverflow, h.driveLow⟩

theorem Passing.settle {s : State} (h : Passing s) (high : Bool) (count : Nat) : Passing (settle high count s) :=
  ⟨h.order, h.timerOverflow, h.driveLow⟩

theorem passing_resetPass (s : State) : Passing (resetPass s) :=
  ⟨sessionOrder_of_resetReceived rfl rfl rfl rfl, rfl, rfl⟩

theorem Passing.concludePass {s : State} (h : Passing s) (reached : Bool) (count : Nat) :
    Rested (concludePass reached count s) := by
  cases hr : s.session.possibleReset && (reached || s.session.timerOverflow) with
  | false =>
    rw [concludePass_released hr]
    exact (h.clearPossibleReset.settle true count).exitHandler rfl
  | true =>
    rw [concludePass_reset hr]
    exact (passing_resetPass _).exitHandler rfl

theorem Passing.write1Pass {s : State} (h : Passing s) (he : s.session.expectingRead = false) :
    Rested (write1Pass s) :=
  (h.beginPass.write1Delivered he).concludePass _ _

theorem Passing.write0Pass {s : State} (h : Passing s) (reached : Bool) (he : s.session.expectingRead = false) :
    Rested (write0Pass reached s) :=
  (h.beginPass.write0Delivered he).concludePass _ _

theorem Passing.read1Pass {s : State} (h : Passing s) (reached : Bool) (he : s.session.expectingRead = true) :
    Rested (read1Pass reached s) :=
  (h.beginPass.readDelivered .read1 he).concludePass _ _

theorem Passing.read0Pass {s : State} (h : Passing s) (reached : Bool) (he : s.session.expectingRead = true) :
    Rested (read0Pass reached s) :=
  have hb : Passing (onDevice Device.setInputMode (Machine.beginPass s)) := ⟨h.order, h.timerOverflow, rfl⟩
  (hb.readDelivered .read0 he).concludePass _ _

theorem Passing.read0PhantomPass {s : State} (h : Passing s) (he : s.session.expectingRead = true) :
    Rested (read0PhantomPass s) :=
  have hb : Passing (onDevice (fun d => { d.setInputMode with irqPending := true }) (Machine.beginPass s)) :=
    ⟨h.order, h.timerOverflow, rfl⟩
  (hb.readDelivered .read0 he).concludePass _ _

theorem glitchPass_rested {s : State} (ho : SessionOrder s.session) (h : AtRest s) : Rested (glitchPass s) :=
  ((passing_of_atRest ho h).beginPass.settle true s.lowTicks).exitGlitch h.possibleReset h.armed

theorem armedPass_rested {s : State} (skip : Bool) (b : Band) (ho : SessionOrder s.session) (h : AtRest s)
    (he : s.session.expectingRead = true) : Rested (armedPass skip b s) := by
  have hp := passing_of_atRest ho h
  cases b with
  | bandZ =>
    cases skip
    · exact hp.read0PhantomPass he
    · exact glitchPass_rested ho h
  | bandA => exact hp.read0Pass false he
  | bandB => exact hp.read0Pass false he
  | bandC => exact hp.read0Pass false he
  | bandD => exact hp.read0Pass true he

theorem Passing.readPass {s : State} (b : Band) (h : Passing s) (he : s.session.expectingRead = true) :
    Rested (readPass b s) := by
  cases b with
  | bandZ => exact h.read1Pass false he
  | bandA => exact h.read1Pass false he
  | bandB => exact h.read1Pass false he
  | bandC => exact h.read1Pass false he
  | bandD => exact h.read1Pass true he

theorem writePass_rested {s : State} (skip : Bool) (b : Band) (ho : SessionOrder s.session) (h : AtRest s)
    (he : s.session.expectingRead = false) : Rested (writePass skip b s) := by
  have hp := passing_of_atRest ho h
  cases b with
  | bandZ =>
    cases skip
    · exact hp.write1Pass he
    · exact glitchPass_rested ho h
  | bandA =>
    cases skip
    · exact hp.write1Pass he
    · exact glitchPass_rested ho h
  | bandB => exact hp.write1Pass he
  | bandC => exact hp.write0Pass false he
  | bandD => exact hp.write0Pass true he

theorem eventPass_rested {s : State} (b : Band) (ho : SessionOrder s.session) (h : AtRest s) :
    Rested (eventPass b s) := by
  unfold eventPass
  split
  next ha => exact armedPass_rested _ b ho h (expectingRead_of_armed h ha)
  next =>
    split
    next he => exact (passing_of_atRest ho h).readPass b he
    next he => exact writePass_rested _ b ho h (Bool.eq_false_of_not_eq_true he)

/-- A pass taken while the handler is not running. -/
theorem eventPass_inv {s : State} (b : Band) (h : Inv s) (hp : s.phase = .wait) : Inv (eventPass b s) := by
  have hrest : AtRest s := by
    have hphase := h.phase
    rwa [PhaseOrder, hp] at hphase
  have hr := eventPass_rested b h.order hrest
  exact ⟨(passKept_eventPass b s).toOperation.toStep.sound h.sound, hr.order, hr.phaseOrder⟩

theorem phase_of_pulseAccepted {s : State} (h : pulseAccepted s = true) : s.phase = .wait := by
  simp only [pulseAccepted, Bool.and_eq_true, beq_iff_eq] at h
  obtain ⟨⟨⟨⟨hp, -⟩, -⟩, -⟩, -⟩ := h
  exact hp

/-! ### Every step from the wire -/

/-- The latched low time and the queue enter none of the invariants. -/
theorem inv_withQueue {s : State} (h : Inv s) (lowTicks : Nat) (input : List Input) :
    Inv { s with lowTicks := lowTicks, input := input } :=
  ⟨⟨h.sound.legal, h.sound.store, h.sound.mask, h.sound.timer⟩, h.order,
    phaseOrder_congr h.phase rfl rfl rfl rfl rfl rfl⟩

theorem wireOnly_of_input_nil {s : State} (h : s.input = []) : wireOnly s = true := by
  simp [wireOnly, h]

theorem wireOnly_tail {s t : State} {i : Input} {rest : List Input} (h : wireOnly s = true)
    (hs : s.input = i :: rest) (ht : t.input = rest) : wireOnly t = true := by
  rw [wireOnly, hs, List.all_cons, Bool.and_eq_true] at h
  rw [wireOnly, ht]
  exact h.2

theorem wireOnly_of_word {s : State} {bytes : List Byte} {rest : List Input} (h : s.input = .word bytes :: rest) :
    wireOnly s = false := by
  simp [wireOnly, h]

theorem tick_input (low : Bool) (s : State) : (tick low s).input = s.input := by
  obtain ⟨-, -, hi, -⟩ := tick_frame low s
  exact hi

/-- Settles O12, by the kinds of step: a tick, a whole pass, power-on. -/
theorem everyWireStepKeepsTheSessionInvariants : Obligations.EveryWireStepKeepsTheSessionInvariants := by
  intro s t h hw hst
  obtain ⟨hc, ⟨hi, rfl⟩ | ⟨low, rest, hi, rfl⟩ | ⟨n, rest, hi, ha, -⟩ | ⟨bytes, rest, hi, -⟩ | ⟨low, rest, hi, rfl⟩⟩ :=
    step_cases hst
  · exact ⟨tick_inv false h, wireOnly_of_input_nil ((tick_input false s).trans hi)⟩
  · exact ⟨tick_inv low (inv_withQueue h s.lowTicks rest), wireOnly_tail hw hi (tick_input low _)⟩
  · cases (step_pulse hc hi ha).symm.trans hst
    exact ⟨eventPass_inv _ (inv_withQueue h n rest) (phase_of_pulseAccepted ha),
      wireOnly_tail hw hi (passKept_eventPass _ _).input⟩
  · rw [wireOnly_of_word hi] at hw
    cases hw
  · rw [boot_eq_powerOn]
    exact ⟨inv_powerOn low rest hc h.sound.store, wireOnly_tail hw hi rfl⟩

end Sys2Proof.Machine
end

/-! PROOF. The identity store (20_memory): no operation writes it (R64), and the cursor's walk through its 64 bits in
transfer order (R62). -/
section

namespace Sys2Proof.Machine

/-! ### What no operation writes -/

/-- Settles O15: the common frame of the rows, read at the one next state that the row answers. -/
theorem everyOperationKeepsIdentityConfigurationAndQueue :
    Obligations.EveryOperationKeepsIdentityConfigurationAndQueue := by
  intro i s t h
  obtain ⟨u, hu, hk⟩ := exec_kept i s
  obtain rfl : u = t := Host.Outcome.next.inj (hu.symm.trans h)
  exact ⟨fun a => by rw [hk.mem], hk.cfg, hk.input, hk.lowTicks, hk.irqEnable⟩

/-! ### The walk of the cursor -/

/-- The session `x` with the cursor at position `n` of the transfer: byte `n / 8`, bit `n % 8` (20_memory R62). -/
def Session.cursorAt (x : Session) (n : Nat) (h : n < 64) : Session :=
  { x with byteIndex := ⟨n / 8, by omega⟩, bitMask := 0x01#8 <<< (n % 8) }

/-- A session at the start of the cursor. -/
theorem cursorAt_zero {x : Session} (hi : x.byteIndex = 0) (hm : x.bitMask = 0x01#8) :
    x.cursorAt 0 (by decide) = x := by
  cases x
  cases hi
  cases hm
  rfl

/-- A byte is over at its bit 7, and only there. -/
theorem bitMask_eq_top_iff {k : Nat} (h : k < 8) : 0x01#8 <<< k = 0x80#8 ↔ k = 7 := by
  revert k
  decide

/-- R176 within a byte and between two bytes: one position on, with CommandState unchanged. -/
theorem advanceCursor_cursorAt (x : Session) {n : Nat} (h : n + 1 < 64) :
    (x.cursorAt n (by omega)).advanceCursor = x.cursorAt (n + 1) h := by
  have htop := bitMask_eq_top_iff (Nat.mod_lt n (by decide : 0 < 8))
  rcases advanceCursor_cases (x.cursorAt n (by omega)) with ⟨hm, e⟩ | ⟨hm, hi, e⟩ | ⟨hm, hi, -⟩
  · have hn : n % 8 ≠ 7 := fun hn => hm (htop.mpr hn)
    have hbyte : (n + 1) / 8 = n / 8 := by omega
    have hbit : (n + 1) % 8 = n % 8 + 1 := by omega
    rw [e]
    simp only [Session.cursorAt, hbyte, hbit, BitVec.shiftLeft_add]
  · have hn : n % 8 = 7 := htop.mp hm
    have hbyte : (⟨n / 8, by omega⟩ : Fin 8) + 1 = ⟨(n + 1) / 8, by omega⟩ :=
      Fin.ext (by simp only [Fin.val_add, Fin.val_one]; omega)
    have hbit : (n + 1) % 8 = 0 := by omega
    rw [e]
    simp only [Session.cursorAt, hbyte, hbit, BitVec.shiftLeft_zero]
  · have hn : n % 8 = 7 := htop.mp hm
    have hbyte : n / 8 = 7 := congrArg Fin.val hi
    omega

/-- R176 at the last position: back to the start, in Idle. -/
theorem advanceCursor_cursorAt_last (x : Session) :
    (x.cursorAt 63 (by decide)).advanceCursor = { x.cursorAt 0 (by decide) with commandState := .idle } := rfl

/-- `n` advances from the start of the cursor. -/
theorem iterate_advanceCursor (x : Session) {n : Nat} (h : n < 64) :
    Session.advanceCursor^[n] (x.cursorAt 0 (by decide)) = x.cursorAt n h := by
  induction n with
  | zero => rfl
  | succ n ih => rw [Function.iterate_succ_apply', ih (by omega), advanceCursor_cursorAt x h]

/-- Settles O36: 63 advances walk the positions, and the 64th is made at the last one. -/
theorem cursorWalksTheSixtyFourBits : Obligations.CursorWalksTheSixtyFourBits := by
  intro x hi hm
  have hwalk : ∀ {n : Nat} (h : n < 64), Session.advanceCursor^[n] x = x.cursorAt n h := fun h => by
    have hn := iterate_advanceCursor x h
    rwa [cursorAt_zero hi hm] at hn
  refine ⟨fun n => hwalk n.isLt, ?_⟩
  rw [Function.iterate_succ_apply' Session.advanceCursor 63, hwalk (by decide), advanceCursor_cursorAt_last,
    cursorAt_zero hi hm]

end Sys2Proof.Machine
end

/-! PROOF. The encoding (30_encoding): the F-PULSE rows and their keys (R83, R84), the command bytes (R88), the bands
(R82), and the row that a pulse runs. -/
section

namespace Sys2Proof

/-! ### The F-PULSE rows -/

/-- The rows of R84, which are encoded by their key, in format 1 (`encode_of_isPulseRow`). -/
def Instr.isPulseRow : Instr → Bool
  | .glitch _ | .write1Short _ | .write1BandB _ | .write0 _ | .write0Reset _ | .read1 _ _ | .read1Reset _
  | .glitchFast | .read0BandZ | .read0BandA _ | .read0BandBC _ _ | .read0Reset _ | .armedNotER _ _ => true
  | _ => false

theorem encode_of_isPulseRow {i : Instr} (hp : i.isPulseRow = true) (disc : Byte) :
    encode disc i = [(encodeKey i).setWidth 8, 1#8] := by
  cases i with
  | glitch | write1Short | write1BandB | write0 | write0Reset | read1 | read1Reset | glitchFast | read0BandZ
  | read0BandA | read0BandBC | read0Reset | armedNotER => rfl
  | _ => cases hp

/-- The decode table gives each row back from its own key (R84). -/
theorem decodeKey_encodeKey {disc : Byte} {i : Instr} (hp : i.isPulseRow = true) (hw : i.wellFormed disc = true) :
    decodeKey (encodeKey i) = .ok i := by
  cases i with
  | glitch b | write1Short b =>
    have hb : b = .bandZ ∨ b = .bandA := by simpa [Instr.wellFormed] using hw
    rcases hb with rfl | rfl <;> rfl
  | read1 k b =>
    have hb : b ≠ .bandD := by simpa [Instr.wellFormed] using hw
    cases b with
    | bandD => exact absurd rfl hb
    | bandZ | bandA | bandB | bandC => cases k <;> rfl
  | read0BandBC k b =>
    have hb : b = .bandB ∨ b = .bandC := by simpa [Instr.wellFormed] using hw
    rcases hb with rfl | rfl <;> cases k <;> rfl
  | write1BandB k | write0 k | write0Reset k | read1Reset k | read0BandA k | read0Reset k => cases k <;> rfl
  | glitchFast | read0BandZ => rfl
  | armedNotER k b => cases k <;> cases b <;> rfl
  | _ => cases hp

/-- The operation is an F-PULSE row of the table, and this is its key. -/
structure IsRowOf (disc : Byte) (i : Instr) (key : Key) : Prop where
  pulse : i.isPulseRow = true
  wellFormed : i.wellFormed disc = true
  key : encodeKey i = key

theorem IsRowOf.decodeKey_eq {disc : Byte} {i : Instr} {key : Key} (h : IsRowOf disc i key) : decodeKey key = .ok i :=
  h.key ▸ decodeKey_encodeKey h.pulse h.wellFormed

/-- In write mode SKIP drops the pulses of bands Z and A, which are else a WRITE1 (R84). -/
theorem isRowOf_shortWrite (disc : Byte) (k : Bool) {b : Band} (h : b = .bandZ ∨ b = .bandA) :
    IsRowOf disc (if k then .glitch b else .write1Short b) (pulseKey k false false b) := by
  rcases h with rfl | rfl <;> cases k <;> exact ⟨rfl, rfl, rfl⟩

/-- On the fast path SKIP drops the pulses of band Z, which are else a READ0 (R84). -/
theorem isRowOf_shortFast (disc : Byte) (k : Bool) :
    IsRowOf disc (if k then .glitchFast else .read0BandZ) (pulseKey k true true .bandZ) := by
  cases k <;> exact ⟨rfl, rfl, rfl⟩

/-- Every combination of SKIP, ER, armed and band is the key of a row that is well-formed whatever CMD_DISCOVER is. -/
theorem exists_isRowOf (k er armed : Bool) (b : Band) : ∃ i, ∀ disc, IsRowOf disc i (pulseKey k er armed b) := by
  cases armed with
  | true =>
    cases er with
    | false => exact ⟨.armedNotER k b, fun _ => ⟨rfl, rfl, rfl⟩⟩
    | true =>
      cases b with
      | bandZ => exact ⟨_, fun disc => isRowOf_shortFast disc k⟩
      | bandA => exact ⟨.read0BandA k, fun _ => ⟨rfl, rfl, rfl⟩⟩
      | bandB | bandC => exact ⟨.read0BandBC k _, fun _ => ⟨rfl, rfl, rfl⟩⟩
      | bandD => exact ⟨.read0Reset k, fun _ => ⟨rfl, rfl, rfl⟩⟩
  | false =>
    cases er with
    | true =>
      cases b with
      | bandZ | bandA | bandB | bandC => exact ⟨.read1 k _, fun _ => ⟨rfl, rfl, rfl⟩⟩
      | bandD => exact ⟨.read1Reset k, fun _ => ⟨rfl, rfl, rfl⟩⟩
    | false =>
      cases b with
      | bandZ => exact ⟨_, fun disc => isRowOf_shortWrite disc k (.inl rfl)⟩
      | bandA => exact ⟨_, fun disc => isRowOf_shortWrite disc k (.inr rfl)⟩
      | bandB => exact ⟨.write1BandB k, fun _ => ⟨rfl, rfl, rfl⟩⟩
      | bandC => exact ⟨.write0 k, fun _ => ⟨rfl, rfl, rfl⟩⟩
      | bandD => exact ⟨.write0Reset k, fun _ => ⟨rfl, rfl, rfl⟩⟩

/-! ### Keys and their band codes -/

theorem bandOfCode_of_lt {code : BitVec 3} (h : code < 5#3) : (bandOfCode code).map bandCode = some code := by
  revert code
  decide

theorem bandOfCode_of_ge {code : BitVec 3} (h : 5#3 ≤ code) : bandOfCode code = none := by
  revert code
  decide

/-- A key is its three flags and its band code (R83). -/
theorem key_eq_append (key : Key) :
    key = BitVec.ofBool (key.getLsbD 5) ++ BitVec.ofBool (key.getLsbD 4) ++ BitVec.ofBool (key.getLsbD 3)
      ++ key.extractLsb' 0 3 := by
  revert key
  decide

/-- A key with a band code of 0 to 4 is the key of its flags and that band. -/
theorem exists_eq_pulseKey {key : Key} (h : key.extractLsb' 0 3 < 5#3) :
    ∃ k er armed b, key = pulseKey k er armed b := by
  obtain ⟨b, -, hb⟩ := Option.map_eq_some_iff.mp (bandOfCode_of_lt h)
  refine ⟨key.getLsbD 5, key.getLsbD 4, key.getLsbD 3, b, ?_⟩
  rw [pulseKey, hb]
  exact key_eq_append key

theorem decodeKey_of_noSuchBand {key : Key} (h : 5#3 ≤ key.extractLsb' 0 3) :
    decodeKey key = .error (.noSuchBand key) := by
  simp only [decodeKey, bandOfCode_of_ge h]

/-! ### Command bytes -/

theorem decodeCommand_readIdentity (disc : Byte) : decodeCommand disc cmdReadIdentity = .readIdentity := rfl

theorem decodeCommand_discover {disc : Byte} (h : disc ≠ cmdReadIdentity) : decodeCommand disc disc = .discover := by
  simp [decodeCommand, commandOf, h]

theorem decodeCommand_other {disc c : Byte} (h : c ≠ cmdReadIdentity) (h' : c ≠ disc) :
    decodeCommand disc c = .cmdOther c := by
  simp [decodeCommand, commandOf, h, h']

/-! ### Bands -/

/-- The range of each band (R82). -/
def InBand (c : Config) (lowTicks : Nat) : Band → Prop
  | .bandZ => lowTicks = 0
  | .bandA => 1 ≤ lowTicks ∧ lowTicks < c.tW1Min
  | .bandB => c.tW1Min ≤ lowTicks ∧ lowTicks < c.tW0Min
  | .bandC => c.tW0Min ≤ lowTicks ∧ lowTicks < c.tRstMin
  | .bandD => c.tRstMin ≤ lowTicks

end Sys2Proof

namespace Sys2Proof.Machine

section Bands

variable {c : Config} {lowTicks : Nat}

theorem inBand_bandOf (hc : configLegal c = true) : InBand c lowTicks (bandOf c lowTicks) := by
  obtain ⟨-, h1, -⟩ := (configLegal_iff c).1 hc
  unfold bandOf
  split_ifs <;> simp only [InBand] <;> omega

/-- The thresholds of a legal configuration rise, so a low time in a band's range is in no band before it. -/
theorem bandOf_of_inBand (hc : configLegal c = true) {b : Band} (h : InBand c lowTicks b) :
    bandOf c lowTicks = b := by
  obtain ⟨-, h1, h2, h3, -⟩ := (configLegal_iff c).1 hc
  cases b with
  | bandZ => exact if_pos h
  | bandA =>
    obtain ⟨hl, hu⟩ := h
    rw [bandOf, if_neg (by omega), if_pos hu]
  | bandB =>
    obtain ⟨hl, hu⟩ := h
    rw [bandOf, if_neg (by omega), if_neg (by omega), if_pos hu]
  | bandC =>
    obtain ⟨hl, hu⟩ := h
    rw [bandOf, if_neg (by omega), if_neg (by omega), if_neg (by omega), if_pos hu]
  | bandD =>
    have hl : c.tRstMin ≤ lowTicks := h
    rw [bandOf, if_neg (by omega), if_neg (by omega), if_neg (by omega), if_neg (by omega)]

theorem bandOf_eq_iff (hc : configLegal c = true) (b : Band) : bandOf c lowTicks = b ↔ InBand c lowTicks b :=
  ⟨fun h => h ▸ inBand_bandOf hc, bandOf_of_inBand hc⟩

end Bands

/-! ### The row that a pulse runs -/

/-- An accepted pulse runs the row whose key the state's flags and the pulse's band make (R83, R130). -/
theorem step_pulse_row {s : State} {lowTicks : Nat} {rest : List Input} {i : Instr} {er armed : Bool} {b : Band}
    (hc : configLegal s.cfg = true) (hi : s.input = .pulse lowTicks :: rest) (ha : pulseAccepted s = true)
    (hflags : s.session.read0Armed = armed ∧ s.session.expectingRead = er) (hb : InBand s.cfg lowTicks b)
    (hrow : IsRowOf s.cfg.cmdDiscover i (pulseKey s.cfg.skip er armed b)) :
    step s = exec i { s with lowTicks := lowTicks, input := rest } := by
  obtain ⟨rfl, rfl⟩ := hflags
  rw [← bandOf_of_inBand hc hb] at hrow
  rw [step_pulse_accepted hc hi ha]
  exact runBytes_of_decode ((decode_pulseBytes _ _ s).trans hrow.decodeKey_eq)

/-! ### The obligations -/

/-- Settles O1, by the format of the row: the key of an F-PULSE row, the byte of a command, the operation number of any
other row. -/
theorem decodeOfEncodeIsTheOperation : Obligations.DecodeOfEncodeIsTheOperation := by
  intro disc i hw
  have hpulse (hp : i.isPulseRow = true) : decode disc (encode disc i) = .ok i := by
    rw [encode_of_isPulseRow hp]
    exact (decodePulseByte_setWidth (encodeKey i)).trans (decodeKey_encodeKey hp hw)
  cases i with
  | glitch | write1Short | write1BandB | write0 | write0Reset | read1 | read1Reset | glitchFast | read0BandZ
  | read0BandA | read0BandBC | read0Reset | armedNotER => exact hpulse rfl
  | readIdentity => exact congrArg Except.ok (decodeCommand_readIdentity disc)
  | discover => exact congrArg Except.ok (decodeCommand_discover (bne_iff_ne.mp hw))
  | cmdOther c =>
    obtain ⟨hr, hd⟩ := Bool.and_eq_true_iff.mp hw
    exact congrArg Except.ok (decodeCommand_other (bne_iff_ne.mp hr) (bne_iff_ne.mp hd))
  | triplet bit | onWriteBit bit | onWriteBitResetReceived bit | onWriteBitDiscover bit
  | onWriteBitIdleOrReportIdentity bit | configureFallingEdge bit => cases bit <;> rfl
  | _ => rfl

/-- Settles O6: each range of low times has its band, and with it the key of its row. -/
theorem stepRunsThePulseRowOfTheTable : Obligations.StepRunsThePulseRowOfTheTable := by
  intro s lowTicks rest hc hi hp hq he hd hl u k b
  have haccept : pulseAccepted s = true := by simp [pulseAccepted, hp, hq, he, hd, hl]
  have hrow {i : Instr} {er armed : Bool} {b' : Band} (ha : s.session.read0Armed = armed)
      (hr : s.session.expectingRead = er) (hb : InBand s.cfg lowTicks b')
      (hkey : IsRowOf s.cfg.cmdDiscover i (pulseKey k er armed b')) : step s = exec i u :=
    step_pulse_row hc hi haccept ⟨ha, hr⟩ hb hkey
  have hband {b' : Band} (h : InBand s.cfg lowTicks b') : b = b' := bandOf_of_inBand hc h
  have hb : InBand s.cfg lowTicks b := inBand_bandOf hc
  have hshort (hlt : lowTicks < s.cfg.tW1Min) : b = .bandZ ∨ b = .bandA :=
    lowTicks.eq_zero_or_pos.imp (fun hz => hband hz) fun hpos => hband ⟨hpos, hlt⟩
  have hlong (hle : s.cfg.tW1Min ≤ lowTicks) (hlt : lowTicks < s.cfg.tRstMin) : b = .bandB ∨ b = .bandC :=
    (Nat.lt_or_ge lowTicks s.cfg.tW0Min).imp (fun h => hband ⟨hle, h⟩) fun h => hband ⟨h, hlt⟩
  have hnotD (hlt : lowTicks < s.cfg.tRstMin) : b ≠ .bandD := fun h =>
    absurd ((bandOf_eq_iff hc .bandD).1 h) (Nat.not_le_of_lt hlt)
  exact ⟨fun ha hr =>
      ⟨fun hlt => hrow ha hr hb (isRowOf_shortWrite _ k (hshort hlt)),
        fun hle hlt => hrow ha hr (b' := .bandB) ⟨hle, hlt⟩ ⟨rfl, rfl, rfl⟩,
        fun hle hlt => hrow ha hr (b' := .bandC) ⟨hle, hlt⟩ ⟨rfl, rfl, rfl⟩,
        fun hle => hrow ha hr (b' := .bandD) hle ⟨rfl, rfl, rfl⟩⟩,
    fun ha hr =>
      ⟨fun hlt => hrow ha hr hb ⟨rfl, bne_iff_ne.mpr (hnotD hlt), rfl⟩,
        fun hle => hrow ha hr (b' := .bandD) hle ⟨rfl, rfl, rfl⟩⟩,
    fun ha hr =>
      ⟨fun hz => hrow ha hr (b' := .bandZ) hz (isRowOf_shortFast _ k),
        fun hle hlt => hrow ha hr (b' := .bandA) ⟨hle, hlt⟩ ⟨rfl, rfl, rfl⟩,
        fun hle hlt => hrow ha hr hb ⟨rfl, by simpa [Instr.wellFormed] using hlong hle hlt, rfl⟩,
        fun hle => hrow ha hr (b' := .bandD) hle ⟨rfl, rfl, rfl⟩⟩,
    fun ha hr => hrow ha hr hb ⟨rfl, rfl, rfl⟩⟩

/-- Settles O2: a key with a band code of 0 to 4 is the key of a row, which the decode table gives back. -/
theorem pulseRowsPartitionTheValidKeys : Obligations.PulseRowsPartitionTheValidKeys := by
  refine fun key => ⟨fun h => ?_, decodeKey_of_noSuchBand⟩
  obtain ⟨k, er, armed, b, rfl⟩ := exists_eq_pulseKey h
  obtain ⟨i, hi⟩ := exists_isRowOf k er armed b
  exact ⟨i, (hi 0#8).decodeKey_eq, (hi 0#8).key, fun disc => (hi disc).wellFormed⟩

/-- Settles O3: each word is the encoding of its row, so O1 decodes it. -/
theorem sampleWordsDecodeToTheirRows : Obligations.SampleWordsDecodeToTheirRows :=
  have h (i : Instr) (hw : i.wellFormed 0xF0#8 = true) := decodeOfEncodeIsTheOperation 0xF0#8 i hw
  ⟨h (.glitch .bandA) rfl, h (.write1Short .bandZ) rfl, h (.write1BandB true) rfl, h (.write0 false) rfl,
    h (.read1 true .bandB) rfl, h .glitchFast rfl, h (.read0BandBC false .bandC) rfl, h (.read0Reset true) rfl,
    h (.armedNotER false .bandD) rfl, h .readIdentity rfl, h .discover rfl, h (.cmdOther 0x55#8) rfl⟩

/-- Settles O4: a low time is in a band exactly when it is in the band's range. -/
theorem lowTicksFallInExactlyOneBand : Obligations.LowTicksFallInExactlyOneBand := by
  intro c lowTicks hc
  have hempty (h1 : c.tW1Min = 1) : bandOf c lowTicks ≠ .bandA := fun hb => by
    obtain ⟨hl, hu⟩ := (bandOf_eq_iff hc .bandA).1 hb
    omega
  exact ⟨rfl, rfl, rfl, rfl, rfl, hempty, bandOf_eq_iff hc .bandZ, bandOf_eq_iff hc .bandA, bandOf_eq_iff hc .bandB,
    bandOf_eq_iff hc .bandC, bandOf_eq_iff hc .bandD⟩

/-- Settles O46: the unreachable row runs the armed pass of its band, which is that of the armed row. -/
theorem armedWithoutReadModeActsAsArmed : Obligations.ArmedWithoutReadModeActsAsArmed :=
  fun s _ => ⟨armedPass true .bandZ s, armedPass false .bandZ s, armedPass false .bandA s, armedPass false .bandD s,
    rfl, rfl, rfl, rfl, rfl, rfl, rfl, rfl, rfl, rfl⟩

end Sys2Proof.Machine
end

/-! PROOF. The read and write slots at event level (30_encoding R87 to R91): what one slot leaves, the identity bit at
the cursor (20_memory R61, R62), and the transfers of whole slots. -/
section

namespace Sys2Proof.Machine

open Sys2Proof.Safety

/-! ### The identity bit at the cursor -/

/-- Masking a byte with its bit `k` tests the bit. -/
theorem and_oneHot_ne_zero (b : Byte) {k : Nat} (h : k < 8) :
    decide (b &&& 0x01#8 <<< k ≠ 0x00#8) = b.getLsbD k := by
  have hne : BitVec.twoPow 8 k ≠ 0#8 := fun e => by
    have hk := congrArg (BitVec.getLsbD · k) e
    simp [h] at hk
  rw [← BitVec.twoPow_eq, BitVec.and_twoPow]
  cases b.getLsbD k <;> simp [hne]

/-- `idbit()` at position `n` of the transfer is identity bit `n` (20_memory R61, R62). -/
theorem idbit_cursorAt (m : Memory) (x : Session) {n : Nat} (h : n < 64) :
    idbit m (x.cursorAt n h) = identityBit m n := by
  have hbyte : readByte m (n / 8) = some (identityByte m ⟨n / 8, by omega⟩) := readByte_index m ⟨n / 8, by omega⟩
  rw [identityBit, hbyte]
  exact and_oneHot_ne_zero _ (Nat.mod_lt n (by decide))

/-- A session whose cursor is at position `n`. -/
theorem cursorAt_self {x : Session} {n : Nat} (h : n < 64) (hi : x.byteIndex = ⟨n / 8, by omega⟩)
    (hm : x.bitMask = 0x01#8 <<< (n % 8)) : x.cursorAt n h = x := by
  rw [Session.cursorAt, ← hi, ← hm]

/-! ### What one slot leaves -/

/-- What slots without RESET leave: the frame of a transfer, the events of the slots, the session state `x`, and a line
that only the slave can hold low. -/
structure SlotsLeave (s t : State) (events : List BusEvent) (x : Session) : Prop where
  frame : TransferFrame s t
  input : t.input = s.input
  events : t.events = events
  session : t.session = x
  lineNow : t.device.lineNow = !t.device.driveLow

/-- A pass that has begun in `s` and not been reset: one event so far, the line driver as before or released. -/
structure PassRuns (s u : State) (e : BusEvent) : Prop where
  kept : PassKept s u
  driveLow : u.device.driveLow = true → s.device.driveLow = true
  irqPending : u.device.irqPending = false
  latCount : u.latCount = 0
  events : u.events = [e]
  timerOverflow : u.session.timerOverflow = false

/-- With TO clear and the line released below the threshold, such a pass ends without RESET (R127). -/
theorem PassRuns.concludes {s u : State} {e : BusEvent} (h : PassRuns s u e) (count : Nat) :
    SlotsLeave s (concludePass false count u) [e] (passEnd u.session) := by
  have hreset : (u.session.possibleReset && (false || u.session.timerOverflow)) = false := by
    rw [h.timerOverflow, Bool.or_false, Bool.and_false]
  rw [concludePass_released hreset]
  exact
    { frame := ⟨h.kept.mem, h.kept.cfg, h.kept.lowTicks, h.kept.retBit, h.kept.retTicks, h.kept.irqEnable,
        h.driveLow, rfl, h.irqPending, rfl, h.latCount⟩
      input := h.kept.input
      events := h.events
      session := rfl
      lineNow := rfl }

section Slots

variable {s : State}

/-- The session in which a write slot's bit reaches the engine (R122, R123, R162). -/
def Session.receiving (w : Bool) (x : Session) : Session :=
  { x with pendingBitValue := w, possibleReset := !w || x.possibleReset }

/-- A write slot that carries `w` delivers the bit to the engine. -/
theorem writeSlot_leaves (w : Bool) (ho : s.session.timerOverflow = false) :
    SlotsLeave s (if w then write1Pass s else write0Pass false s) [writeEvent w]
      (passEnd ((s.session.receiving w).onWriteBit s.mem s.cfg.cmdDiscover w)) := by
  have hflag : ((s.session.receiving w).onWriteBit s.mem s.cfg.cmdDiscover w).timerOverflow = false :=
    (onWriteBit_flags _ _ _ _).timerOverflow.trans ho
  cases w with
  | true =>
    have h : PassRuns s (write1Delivered (beginPass s)) .write1 :=
      ⟨(passKept_beginPass s).comp (kept_write1Delivered _).toPass, id, rfl, rfl, rfl, hflag⟩
    exact h.concludes s.lowTicks
  | false =>
    have h : PassRuns s (write0Delivered (beginPass s)) .write0 :=
      ⟨(passKept_beginPass s).comp (kept_write0Delivered _).toPass, id, rfl, rfl, rfl, hflag⟩
    exact h.concludes s.lowTicks

theorem eventPass_writeSlot (w : Bool) (he : s.session.expectingRead = false) (ha : s.session.read0Armed = false) :
    eventPass (writeSlot w) s = if w then write1Pass s else write0Pass false s := by
  cases w <;> simp [eventPass, ha, he, writeSlot, writePass]

/-- In read mode a read slot is answered with PBV, and the engine rearms (R124, R125). -/
theorem readSlot_leaves (ho : s.session.timerOverflow = false) (he : s.session.expectingRead = true)
    (ha : s.session.read0Armed = !s.session.pendingBitValue) :
    SlotsLeave s (eventPass readSlot s) [readEvent s.session.pendingBitValue] (passEnd (s.session.rearm s.mem)) := by
  have hflag : (s.session.rearm s.mem).timerOverflow = false := (rearm_flags _ _).timerOverflow.trans ho
  cases hb : s.session.pendingBitValue with
  | true =>
    have harmed : s.session.read0Armed = false := by rw [ha, hb]; rfl
    have hpass : eventPass readSlot s = read1Pass false s := by simp [eventPass, harmed, he, readSlot, readPass]
    have h : PassRuns s (readDelivered .read1 (beginPass s)) .read1 :=
      ⟨(passKept_beginPass s).comp (kept_readDelivered .read1 _).toPass, id, rfl, rfl, rfl, hflag⟩
    rw [hpass]
    exact h.concludes s.lowTicks
  | false =>
    have harmed : s.session.read0Armed = true := by rw [ha, hb]; rfl
    have hpass : eventPass readSlot s = read0Pass false s := by simp [eventPass, harmed, readSlot, armedPass]
    have h : PassRuns s (readDelivered .read0 (onDevice Device.setInputMode (beginPass s))) .read0 :=
      ⟨((passKept_beginPass s).comp (kept_setInputMode _).toPass).comp (kept_readDelivered .read0 _).toPass,
        nofun, rfl, rfl, rfl, hflag⟩
    rw [hpass]
    exact h.concludes _

/-! ### Sequences of slots -/

theorem transferFrame_trans {s t u : State} (h : TransferFrame s t) (k : TransferFrame t u) : TransferFrame s u where
  mem := k.mem.trans h.mem
  cfg := k.cfg.trans h.cfg
  lowTicks := k.lowTicks.trans h.lowTicks
  retBit := k.retBit.trans h.retBit
  retTicks := k.retTicks.trans h.retTicks
  irqEnable := k.irqEnable.trans h.irqEnable
  driveLow := h.driveLow ∘ k.driveLow
  timerRunning := k.timerRunning
  irqPending := k.irqPending
  phase := k.phase
  latCount := k.latCount

/-- The last slot of a sequence. -/
theorem SlotsLeave.last {b : Band} {e : BusEvent} {x : Session} (h : SlotsLeave s (eventPass b s) [e] x)
    (seen : List BusEvent) : SlotsLeave s (runSlots [b] seen s) (seen ++ [e]) x where
  frame := ⟨h.frame.mem, h.frame.cfg, h.frame.lowTicks, h.frame.retBit, h.frame.retTicks, h.frame.irqEnable,
    h.frame.driveLow, h.frame.timerRunning, h.frame.irqPending, h.frame.phase, h.frame.latCount⟩
  input := h.input
  events := by rw [← h.events]; rfl
  session := h.session
  lineNow := h.lineNow

/-- A slot, then the rest of the sequence. -/
theorem SlotsLeave.andThen {b : Band} {bs : List Band} {e : BusEvent} {seen events : List BusEvent} {x y : Session}
    (h : SlotsLeave s (eventPass b s) [e] x)
    (hrest : SlotsLeave (eventPass b s) (runSlots bs (seen ++ [e]) (eventPass b s)) events y) :
    SlotsLeave s (runSlots (b :: bs) seen s) events y := by
  rw [runSlots, h.events]
  exact ⟨transferFrame_trans h.frame hrest.frame, hrest.input.trans h.input, hrest.events, hrest.session, hrest.lineNow⟩

/-! ### Preparing the next bit, by CommandState -/

theorem prepareReadBit_reportIdentity (m : Memory) {x : Session} (hc : x.commandState = .reportIdentity) :
    x.prepareReadBit m = { x.advanceCursor with pendingBitValue := idbit m x } := by
  simp [Session.prepareReadBit, Session.onReadBitRequested, Session.reportBit, hc]

theorem prepareReadBit_trueBit (m : Memory) {x : Session} (hc : x.commandState = .discover)
    (hi : x.invertNextReadBit = false) :
    x.prepareReadBit m = { x with invertNextReadBit := true, pendingBitValue := idbit m x } := by
  simp [Session.prepareReadBit, Session.onReadBitRequested, Session.discoverBit, hc, hi]

theorem prepareReadBit_complement (m : Memory) {x : Session} (hc : x.commandState = .discover)
    (hi : x.invertNextReadBit = true) :
    x.prepareReadBit m =
      { x with invertNextReadBit := false, deferredSwitchToWrite := true, pendingBitValue := !(idbit m x) } := by
  simp [Session.prepareReadBit, Session.onReadBitRequested, Session.discoverBit, Session.deferSwitchToWrite, hc, hi]

theorem prepareReadBit_idle (m : Memory) {x : Session} (hc : x.commandState = .idle) :
    x.prepareReadBit m = { x with pendingBitValue := true } := by
  simp [Session.prepareReadBit, Session.onReadBitRequested, Session.passiveBit, hc]

theorem rearm_of_deferred (m : Memory) {x : Session} (hd : x.deferredSwitchToWrite = true) :
    x.rearm m = { x with expectingRead := false, deferredSwitchToWrite := false } := if_pos hd

theorem rearm_of_not_deferred (m : Memory) {x : Session} (hd : x.deferredSwitchToWrite = false) :
    x.rearm m = x.prepareReadBit m := if_neg (by rw [hd]; decide)

/-- The session `x` in read mode with `v` to be answered next. -/
def Session.answering (x : Session) (v : Bool) : Session := { x with pendingBitValue := v, read0Armed := !v }

/-- In read mode the end of a pass records the fast-path flag of the bit to be answered (R35). -/
theorem passEnd_pendingBitValue {x : Session} (he : x.expectingRead = true) (v : Bool) :
    passEnd { x with pendingBitValue := v } = Session.answering { x with possibleReset := false } v := by
  simp [passEnd, Session.answering, he]

/-! ### Switching to read mode (R173), and the master's choice (R167) -/

theorem switchToReadMode_trueBit (m : Memory) {x : Session} (hc : x.commandState = .discover)
    (hi : x.invertNextReadBit = false) :
    x.switchToReadMode m = { x with
      expectingRead := true, deferredSwitchToWrite := false, invertNextReadBit := true,
      pendingBitValue := idbit m x } :=
  prepareReadBit_trueBit m (x := { x with expectingRead := true, deferredSwitchToWrite := false }) hc hi

theorem switchToReadMode_idle (m : Memory) {x : Session} (hc : x.commandState = .idle) :
    x.switchToReadMode m =
      { x with expectingRead := true, deferredSwitchToWrite := false, pendingBitValue := true } :=
  prepareReadBit_idle m (x := { x with expectingRead := true, deferredSwitchToWrite := false }) hc

theorem onWriteBit_match {m : Memory} {disc : Byte} {w : Bool} {x : Session} (hc : x.commandState = .discover)
    (hw : w = idbit m x) : x.onWriteBit m disc w = x.advanceCursor.switchToReadMode m := by
  simp [Session.onWriteBit, Session.discoverWrite, hc, hw]

theorem onWriteBit_mismatch {m : Memory} {disc : Byte} {w : Bool} {x : Session} (hc : x.commandState = .discover)
    (hw : w ≠ idbit m x) : x.onWriteBit m disc w = { x with commandState := .idle } := by
  simp [Session.onWriteBit, Session.discoverWrite, hc, hw]

/-! ### The identity report (R90, 41_protocol_engine R179) -/

/-- The session `x` before the read slot that answers identity bit `n`, but for the last: the bit is prepared and the
cursor one position on (41_protocol_engine R170). -/
def Session.reporting (x : Session) (m : Memory) (n : Nat) (h : n + 1 < 64) : Session :=
  (x.answering (identityBit m n)).cursorAt (n + 1) h

/-- The session `x` in Idle with the cursor at its start. -/
def Session.reported (x : Session) : Session :=
  { x with commandState := .idle, byteIndex := 0, bitMask := 0x01#8, possibleReset := false }

/-- A session in the report (R179): read mode, no overflow. -/
structure InReport (x : Session) : Prop where
  commandState : x.commandState = .reportIdentity
  expectingRead : x.expectingRead = true
  deferred : x.deferredSwitchToWrite = false
  timerOverflow : x.timerOverflow = false

theorem InReport.clearPossibleReset {x : Session} (h : InReport x) : InReport { x with possibleReset := false } :=
  ⟨h.commandState, h.expectingRead, h.deferred, h.timerOverflow⟩

theorem InReport.rearm {x : Session} (h : InReport x) (m : Memory) :
    passEnd (x.rearm m) =
      Session.answering { x.advanceCursor with possibleReset := false } (idbit m x) := by
  rw [rearm_of_not_deferred m h.deferred, prepareReadBit_reportIdentity m h.commandState,
    passEnd_pendingBitValue ((advanceCursor_expectingRead x).trans h.expectingRead)]

theorem InReport.reporting {x : Session} (h : InReport x) (m : Memory) {n : Nat} (hn : n + 1 < 64) :
    InReport (x.reporting m n hn) :=
  ⟨h.commandState, h.expectingRead, h.deferred, h.timerOverflow⟩

variable {x : Session} {n : Nat}

/-- Rearming within the report prepares the next bit. -/
theorem rearm_reporting (m : Memory) (hx : InReport x) (h : n + 2 < 64) :
    passEnd ((x.reporting m n (by omega)).rearm m) =
      Session.reporting { x with possibleReset := false } m (n + 1) h := by
  rw [(hx.reporting m _).rearm, Session.reporting, advanceCursor_cursorAt _ h, idbit_cursorAt]
  rfl

/-- Rearming before the last bit of the report ends it, in Idle (R176). -/
theorem rearm_reporting_last (m : Memory) (hx : InReport x) :
    passEnd ((x.reporting m 62 (by decide)).rearm m) = x.reported.answering (identityBit m 63) := by
  rw [(hx.reporting m _).rearm, Session.reporting, advanceCursor_cursorAt_last, idbit_cursorAt]
  rfl

/-- A slot of the report answers its bit. -/
theorem reportSlot_leaves (hx : InReport x) (h : n + 1 < 64) (hs : s.session = x.reporting s.mem n h) :
    SlotsLeave s (eventPass readSlot s) [readEvent (identityBit s.mem n)]
      (passEnd ((x.reporting s.mem n h).rearm s.mem)) := by
  have hslot := readSlot_leaves (s := s) (by rw [hs]; exact hx.timerOverflow) (by rw [hs]; exact hx.expectingRead)
    (by rw [hs]; rfl)
  rwa [hs] at hslot

/-- The slot of the last bit is taken in Idle, and the next one is to be answered 1 (R172). -/
theorem lastReportSlot_leaves (hx : InReport x) {v : Bool} (hs : s.session = x.reported.answering v) :
    SlotsLeave s (eventPass readSlot s) [readEvent v] (x.reported.answering true) := by
  have hslot := readSlot_leaves (s := s) (by rw [hs]; exact hx.timerOverflow) (by rw [hs]; exact hx.expectingRead)
    (by rw [hs]; rfl)
  have hend : passEnd ((x.reported.answering v).rearm s.mem) = x.reported.answering true := by
    rw [rearm_of_not_deferred (x := x.reported.answering v) s.mem hx.deferred,
      prepareReadBit_idle (x := x.reported.answering v) s.mem rfl,
      passEnd_pendingBitValue (x := x.reported.answering v) hx.expectingRead]
    rfl
  rw [hs, hend] at hslot
  exact hslot

/-- The slots of the report from identity bit `n` on. -/
theorem runSlots_report (k : Nat) (hk : n + k = 62) (hx : InReport x) (seen : List BusEvent)
    (hs : s.session = x.reporting s.mem n (by omega)) :
    SlotsLeave s (runSlots (List.replicate (k + 2) readSlot) seen s)
      (seen ++ (List.range' n (k + 2)).map fun i => readEvent (identityBit s.mem i)) (x.reported.answering true) := by
  induction k generalizing n x s seen with
  | zero =>
    obtain rfl : n = 62 := by omega
    have hslot := reportSlot_leaves hx (by decide) hs
    rw [rearm_reporting_last s.mem hx] at hslot
    have hlast := lastReportSlot_leaves hx hslot.session
    have h := hslot.andThen (seen := seen) (hlast.last _)
    rwa [List.append_assoc] at h
  | succ k ih =>
    have hslot := reportSlot_leaves hx (by omega) hs
    rw [rearm_reporting s.mem hx (by omega)] at hslot
    have hrest := ih (n := n + 1) (by omega) hx.clearPossibleReset (seen ++ [readEvent (identityBit s.mem n)])
      (by rw [hslot.session, hslot.frame.mem])
    have h := hslot.andThen hrest
    rw [hslot.frame.mem, List.append_assoc] at h
    exact h

/-! ### A triplet of the discovery (R91, 41_protocol_engine R180) -/

/-- The session before the first slot of a triplet, whose cursor is at the bit that is to be answered. -/
structure InTriplet (m : Memory) (x : Session) (n : Nat) (hn : n < 64) : Prop where
  commandState : x.commandState = .discover
  expectingRead : x.expectingRead = true
  deferred : x.deferredSwitchToWrite = false
  invert : x.invertNextReadBit = true
  timerOverflow : x.timerOverflow = false
  cursor : x.cursorAt n hn = x
  pendingBitValue : x.pendingBitValue = identityBit m n
  armed : x.read0Armed = !x.pendingBitValue

/-- The session between the two read slots of a triplet: the complement `v` is to be answered, and the switch to write
mode is deferred (R171, R174). -/
def Session.complementing (x : Session) (v : Bool) : Session :=
  Session.answering { x with invertNextReadBit := false, deferredSwitchToWrite := true, possibleReset := false } v

/-- The session before the write slot of a triplet, in write mode (R126). -/
def Session.choosing (x : Session) (v : Bool) : Session :=
  { x with
    invertNextReadBit := false, deferredSwitchToWrite := false, expectingRead := false, pendingBitValue := v,
    possibleReset := false, read0Armed := false }

variable {hn : n < 64}

theorem InTriplet.idbit_eq {m : Memory} (hx : InTriplet m x n hn) : idbit m x = identityBit m n := by
  rw [← hx.cursor, idbit_cursorAt]

theorem InTriplet.rearm {m : Memory} (hx : InTriplet m x n hn) :
    passEnd (x.rearm m) = x.complementing (!(identityBit m n)) := by
  rw [rearm_of_not_deferred m hx.deferred, prepareReadBit_complement m hx.commandState hx.invert, hx.idbit_eq]
  exact passEnd_pendingBitValue
    (x := { x with invertNextReadBit := false, deferredSwitchToWrite := true }) hx.expectingRead _

theorem rearm_complementing (m : Memory) (v : Bool) : passEnd ((x.complementing v).rearm m) = x.choosing v := by
  rw [rearm_of_deferred (x := x.complementing v) m rfl]
  rfl

/-- The engine before the master's choice `w` has the cursor still at the bit. -/
theorem InTriplet.chosen_cursor {m : Memory} (hx : InTriplet m x n hn) (v w : Bool) :
    (x.choosing v).receiving w = ((x.choosing v).receiving w).cursorAt n hn :=
  congrArg (fun y => { (x.choosing v).receiving w with byteIndex := y.byteIndex, bitMask := y.bitMask }) hx.cursor.symm

/-- A mismatch drops out (R167). -/
theorem InTriplet.mismatch {m : Memory} (hx : InTriplet m x n hn) {disc : Byte} {v w : Bool}
    (hw : w ≠ identityBit m n) :
    passEnd (((x.choosing v).receiving w).onWriteBit m disc w) = { x with
      commandState := .idle, expectingRead := false, invertNextReadBit := false, pendingBitValue := w,
      possibleReset := false, read0Armed := false } := by
  have hbit : idbit m ((x.choosing v).receiving w) = identityBit m n := hx.idbit_eq
  rw [onWriteBit_mismatch (x := (x.choosing v).receiving w) hx.commandState (hbit ▸ hw)]
  simp [passEnd, Session.receiving, Session.choosing, hx.deferred]

/-- A match before the last bit goes on to the next triplet. -/
theorem InTriplet.match_next {m : Memory} (hx : InTriplet m x n hn) {disc : Byte} {v w : Bool}
    (hw : w = identityBit m n) (h : n + 1 < 64) :
    passEnd (((x.choosing v).receiving w).onWriteBit m disc w) = { x.cursorAt (n + 1) h with
      pendingBitValue := identityBit m (n + 1), possibleReset := false, read0Armed := !(identityBit m (n + 1)) } := by
  have hbit : idbit m ((x.choosing v).receiving w) = identityBit m n := hx.idbit_eq
  rw [onWriteBit_match (x := (x.choosing v).receiving w) hx.commandState (hbit ▸ hw), hx.chosen_cursor v w,
    advanceCursor_cursorAt _ h,
    switchToReadMode_trueBit (x := ((x.choosing v).receiving w).cursorAt (n + 1) h) m hx.commandState rfl,
    idbit_cursorAt]
  simp [passEnd, Session.receiving, Session.choosing, Session.cursorAt, hx.deferred, hx.expectingRead, hx.invert]

/-- A match at the last bit ends the round in Idle, with the cursor at its start (R176). -/
theorem InTriplet.match_last {m : Memory} (hx : InTriplet m x 63 (by decide)) {disc : Byte} {v w : Bool}
    (hw : w = identityBit m 63) :
    passEnd (((x.choosing v).receiving w).onWriteBit m disc w) = { x with
      commandState := .idle, invertNextReadBit := false, byteIndex := 0, bitMask := 0x01#8,
      pendingBitValue := true, possibleReset := false, read0Armed := false } := by
  have hbit : idbit m ((x.choosing v).receiving w) = identityBit m 63 := hx.idbit_eq
  rw [onWriteBit_match (x := (x.choosing v).receiving w) hx.commandState (hbit ▸ hw), hx.chosen_cursor v w,
    advanceCursor_cursorAt_last, switchToReadMode_idle m rfl]
  simp [passEnd, Session.receiving, Session.choosing, Session.cursorAt, hx.deferred, hx.expectingRead]

/-- A triplet: the bit, its complement, and the master's choice, which the engine takes in write mode. -/
theorem runSlots_triplet (w : Bool) (hx : InTriplet s.mem s.session n hn) :
    SlotsLeave s (runSlots [readSlot, readSlot, writeSlot w] [] s)
      [readEvent (identityBit s.mem n), readEvent (!(identityBit s.mem n)), writeEvent w]
      (passEnd (((s.session.choosing (!(identityBit s.mem n))).receiving w).onWriteBit s.mem s.cfg.cmdDiscover w)) := by
  have htrue := readSlot_leaves hx.timerOverflow hx.expectingRead hx.armed
  rw [hx.rearm, hx.pendingBitValue] at htrue
  have hcomplement := readSlot_leaves (s := eventPass readSlot s) (by rw [htrue.session]; exact hx.timerOverflow)
    (by rw [htrue.session]; exact hx.expectingRead) (by rw [htrue.session]; rfl)
  rw [htrue.session, rearm_complementing] at hcomplement
  have hwrite := writeSlot_leaves (s := eventPass readSlot (eventPass readSlot s)) w
    (by rw [hcomplement.session]; exact hx.timerOverflow)
  rw [← eventPass_writeSlot w (by rw [hcomplement.session]; rfl) (by rw [hcomplement.session]; rfl),
    hcomplement.session, hcomplement.frame.mem, hcomplement.frame.cfg, htrue.frame.mem, htrue.frame.cfg] at hwrite
  exact htrue.andThen (hcomplement.andThen (hwrite.last _))

end Slots

/-! ### The obligations -/

/-- Settles O48, by the walk of the cursor through the report. -/
theorem sixtyFourReadSlotsReportTheIdentity : Obligations.SixtyFourReadSlotsReportTheIdentity := by
  intro s hc he hd ho hi hm hp ha
  have hx : InReport s.session := ⟨hc, he, hd, ho⟩
  have hcursor : s.session.cursorAt 1 (by decide) = s.session := cursorAt_self (by decide) hi hm
  have hs : s.session = s.session.reporting s.mem 0 (by decide) := by
    rw [Session.reporting, Session.answering, ← hp, ← ha]
    exact hcursor.symm
  have h := runSlots_report 62 rfl hx [] hs
  exact ⟨_, rfl, h.frame, h.input, h.events.trans (by rw [List.range_eq_range']; rfl), h.session⟩

/-- Settles O49: the three slots of a triplet, then the engine's answer to the master's choice (R167). -/
theorem tripletTransfersOneIdentityBit : Obligations.TripletTransfersOneIdentityBit := by
  intro s w n hn hc he hd hv ho hi hm hp ha v
  have hx : InTriplet s.mem s.session n hn := ⟨hc, he, hd, hv, ho, cursorAt_self hn hi hm, hp, ha⟩
  have h := runSlots_triplet w hx
  refine ⟨_, rfl, h.frame, h.input, h.events, fun hne => ?_, fun heq hlt => ?_, fun heq hlast => ?_⟩
  · exact h.session.trans (hx.mismatch hne)
  · exact h.session.trans (hx.match_next heq hlt)
  · subst hlast
    exact h.session.trans (hx.match_last heq)

end Sys2Proof.Machine
end

/-! PROOF. The command byte (30_encoding R87, R88): eight write slots, taken by the step as pulses, spell a byte. -/
section

namespace Sys2Proof.Machine

open Sys2Proof.Safety

/-! ### A write slot as a pulse -/

/-- The low times that carry the bit `w` in write mode (R84): WRITE1, or WRITE0 without RESET. -/
def CarriesBit (c : Config) (w : Bool) (lowTicks : Nat) : Prop :=
  if w then (c.skip = true → c.tW1Min ≤ lowTicks) ∧ lowTicks < c.tW0Min
  else c.tW0Min ≤ lowTicks ∧ lowTicks < c.tRstMin

theorem writePass_of_carriesBit {s : State} {w : Bool} (hc : configLegal s.cfg = true)
    (h : CarriesBit s.cfg w s.lowTicks) :
    writePass s.cfg.skip (bandOf s.cfg s.lowTicks) s = if w then write1Pass s else write0Pass false s := by
  cases w with
  | true =>
    obtain ⟨hskip, hlt⟩ : (s.cfg.skip = true → s.cfg.tW1Min ≤ s.lowTicks) ∧ s.lowTicks < s.cfg.tW0Min := h
    rw [writePass_short hc hlt, if_neg fun hk => absurd hk.2 (Nat.not_lt_of_le (hskip hk.1))]
    rfl
  | false =>
    obtain ⟨hle, hlt⟩ : s.cfg.tW0Min ≤ s.lowTicks ∧ s.lowTicks < s.cfg.tRstMin := h
    rw [writePass_long hc hle, decide_eq_false (Nat.not_le_of_lt hlt)]
    rfl

/-- A block in write mode that is ready for a slot. -/
structure WriteReady (s : State) : Prop where
  legal : configLegal s.cfg = true
  accepted : pulseAccepted s = true
  expectingRead : s.session.expectingRead = false
  armed : s.session.read0Armed = false
  timerOverflow : s.session.timerOverflow = false

/-- What steps on write slots leave: the next pulse is accepted, the session state is `x`. -/
structure WriteStepsLeave (s t : State) (x : Session) : Prop where
  mem : t.mem = s.mem
  cfg : t.cfg = s.cfg
  retBit : t.retBit = s.retBit
  retTicks : t.retTicks = s.retTicks
  timerRunning : t.device.timerRunning = false
  accepted : pulseAccepted t = true
  session : t.session = x

theorem WriteStepsLeave.trans {s t u : State} {x y : Session} (h : WriteStepsLeave s t x)
    (k : WriteStepsLeave t u y) : WriteStepsLeave s u y :=
  ⟨k.mem.trans h.mem, k.cfg.trans h.cfg, k.retBit.trans h.retBit, k.retTicks.trans h.retTicks, k.timerRunning,
    k.accepted, k.session⟩

theorem pulseAccepted_iff (s : State) : pulseAccepted s = true ↔
    s.phase = .wait ∧ s.device.irqPending = false ∧ s.device.irqEnable = true ∧ s.device.driveLow = false
      ∧ s.device.lineNow = true := by
  simp [pulseAccepted, and_assoc]

/-- One step on a write slot delivers its bit. -/
theorem step_writeSlot {s : State} {w : Bool} {lowTicks : Nat} {rest : List Input} (hs : WriteReady s)
    (hi : s.input = .pulse lowTicks :: rest) (hw : CarriesBit s.cfg w lowTicks) :
    ∃ t, step s = .next t ∧ t.input = rest
      ∧ WriteStepsLeave s t (passEnd ((s.session.receiving w).onWriteBit s.mem s.cfg.cmdDiscover w)) := by
  obtain ⟨-, -, henable, hdrive, -⟩ := (pulseAccepted_iff s).1 hs.accepted
  have hpass : eventPass (bandOf s.cfg lowTicks) { s with lowTicks := lowTicks, input := rest } =
      if w then write1Pass { s with lowTicks := lowTicks, input := rest }
      else write0Pass false { s with lowTicks := lowTicks, input := rest } := by
    rw [← writePass_of_carriesBit (s := { s with lowTicks := lowTicks, input := rest }) hs.legal hw]
    simp [eventPass, hs.armed, hs.expectingRead]
  have h := writeSlot_leaves (s := { s with lowTicks := lowTicks, input := rest }) w hs.timerOverflow
  rw [← hpass] at h
  refine ⟨_, step_pulse hs.legal hi hs.accepted, h.input, ?_⟩
  have hreleased := Bool.eq_false_iff.mpr fun hd => absurd (h.frame.driveLow hd) (by simp [hdrive])
  exact ⟨h.frame.mem, h.frame.cfg, h.frame.retBit, h.frame.retTicks, h.frame.timerRunning,
    (pulseAccepted_iff _).2 ⟨h.frame.phase, h.frame.irqPending, h.frame.irqEnable.trans henable, hreleased,
      h.lineNow.trans (by rw [hreleased]; rfl)⟩, h.session⟩

/-! ### Accumulating a byte (R163) -/

theorem onWriteBit_resetReceived (m : Memory) (disc : Byte) (w : Bool) {x : Session}
    (hc : x.commandState = .resetReceived) : x.onWriteBit m disc w = x.accumulate m disc w := by
  simp [Session.onWriteBit, hc]

theorem accumulate_before_top (m : Memory) (disc : Byte) (w : Bool) {x : Session} (hm : x.bitMask ≠ 0x80#8) :
    x.accumulate m disc w = { x with
      accumulatedCommand := if w then x.accumulatedCommand ||| x.bitMask else x.accumulatedCommand
      bitMask := x.bitMask <<< 1 } := if_neg hm

theorem accumulate_top (m : Memory) (disc : Byte) (w : Bool) {x : Session} (hm : x.bitMask = 0x80#8) :
    x.accumulate m disc w = Session.dispatch m disc { x with
      accumulatedCommand := if w then x.accumulatedCommand ||| x.bitMask else x.accumulatedCommand
      bitMask := 0x01#8 } := if_pos hm

/-- The byte `c` as far as its bits below `i` have been spelled. -/
def spelled (c : Byte) (i : Nat) : Byte := (c.setWidth i).setWidth 8

theorem getLsbD_spelled (c : Byte) (i j : Nat) (hj : j < 8) :
    (spelled c i).getLsbD j = (decide (j < i) && c.getLsbD j) := by
  rw [spelled, BitVec.getLsbD_setWidth, BitVec.getLsbD_setWidth, decide_eq_true hj, Bool.true_and]

theorem spelled_zero (c : Byte) : spelled c 0 = 0x00#8 := by
  rw [spelled, BitVec.eq_nil (c.setWidth 0)]
  rfl

theorem spelled_eight (c : Byte) : spelled c 8 = c := by
  rw [spelled, BitVec.setWidth_eq, BitVec.setWidth_eq]

/-- Spelling one more bit. -/
theorem spelled_succ (c : Byte) {i : Nat} (hi : i < 8) :
    spelled c (i + 1) = if c.getLsbD i then spelled c i ||| 0x01#8 <<< i else spelled c i := by
  refine BitVec.eq_of_getLsbD_eq fun j hj => ?_
  have hbit : (0x01#8 <<< i).getLsbD j = decide (i = j) := by simp [← BitVec.twoPow_eq, hi]
  have hor : (if c.getLsbD i then spelled c i ||| 0x01#8 <<< i else spelled c i).getLsbD j =
      ((spelled c i).getLsbD j || (c.getLsbD i && decide (i = j))) := by
    cases c.getLsbD i <;> simp [hbit]
  rw [hor, getLsbD_spelled c _ j hj, getLsbD_spelled c _ j hj]
  rcases Nat.lt_trichotomy j i with h | rfl | h
  · simp [h, Nat.ne_of_gt h, Nat.lt_succ_of_lt h]
  · simp
  · simp [Nat.ne_of_lt h, Nat.not_lt_of_gt h, Nat.not_lt_of_ge h]

/-- The session `x`, a command byte begun, after `i` of the slots of `c`; the latest bit was `latest`. -/
def Session.hearing (x : Session) (c : Byte) (i : Nat) (latest : Bool) : Session :=
  { x with bitMask := 0x01#8 <<< i, accumulatedCommand := spelled c i, pendingBitValue := latest }

/-- A session that waits for a command byte (R163). -/
structure AwaitsCommand (x : Session) : Prop where
  commandState : x.commandState = .resetReceived
  expectingRead : x.expectingRead = false
  possibleReset : x.possibleReset = false
  timerOverflow : x.timerOverflow = false
  armed : x.read0Armed = false

section Byte

variable {x : Session} {c : Byte} {i : Nat} {m : Memory} {disc : Byte} {latest : Bool}

/-- A slot before the last accumulates its bit. -/
theorem hearing_accumulates (hx : AwaitsCommand x) (hi : i < 7) :
    passEnd (((x.hearing c i latest).receiving (c.getLsbD i)).onWriteBit m disc (c.getLsbD i)) =
      x.hearing c (i + 1) (c.getLsbD i) := by
  have htop : 0x01#8 <<< i ≠ 0x80#8 := fun h => absurd ((bitMask_eq_top_iff (by omega)).1 h) (by omega)
  rw [onWriteBit_resetReceived (x := (x.hearing c i latest).receiving (c.getLsbD i)) m disc _ hx.commandState,
    accumulate_before_top (x := (x.hearing c i latest).receiving (c.getLsbD i)) m disc _ htop]
  simp [passEnd, Session.receiving, Session.hearing, spelled_succ c (show i < 8 by omega), BitVec.shiftLeft_add,
    hx.expectingRead, hx.possibleReset, hx.armed]

/-- The last slot completes the byte, which is dispatched. -/
theorem hearing_dispatches (hx : AwaitsCommand x) :
    ((x.hearing c 7 latest).receiving (c.getLsbD 7)).onWriteBit m disc (c.getLsbD 7) =
      Session.dispatch m disc
        (Session.receiving (c.getLsbD 7) { x with accumulatedCommand := c, bitMask := 0x01#8 }) := by
  have hc : (if c.getLsbD 7 then spelled c 7 ||| 0x01#8 <<< 7 else spelled c 7) = c := by
    rw [← spelled_succ c (by decide), spelled_eight]
  rw [onWriteBit_resetReceived (x := (x.hearing c 7 latest).receiving (c.getLsbD 7)) m disc _ hx.commandState,
    accumulate_top (x := (x.hearing c 7 latest).receiving (c.getLsbD 7)) m disc _ rfl]
  exact congrArg (fun acc => Session.dispatch m disc
    (Session.receiving (c.getLsbD 7) { x with accumulatedCommand := acc, bitMask := 0x01#8 })) hc

end Byte

/-! ### Dispatching the byte (R164 to R166) -/

/-- With the cursor at its start, `idbit()` is identity bit 0. -/
theorem idbit_start (m : Memory) {x : Session} (hi : x.byteIndex = 0) (hm : x.bitMask = 0x01#8) :
    idbit m x = identityBit m 0 := by
  rw [← cursorAt_zero hi hm, idbit_cursorAt]

theorem startReport_eq (m : Memory) (x : Session) :
    x.startReport m = { x with
      commandState := .reportIdentity, expectingRead := true, deferredSwitchToWrite := false, byteIndex := 0,
      bitMask := 0x02#8, pendingBitValue := identityBit m 0 } := by
  rw [Session.startReport, Session.switchToReadMode, prepareReadBit_reportIdentity m rfl, idbit_start m rfl rfl]
  rfl

theorem startDiscover_eq (m : Memory) (x : Session) :
    x.startDiscover m = { x with
      commandState := .discover, expectingRead := true, deferredSwitchToWrite := false, byteIndex := 0,
      bitMask := 0x01#8, invertNextReadBit := true, pendingBitValue := identityBit m 0 } := by
  rw [Session.startDiscover, switchToReadMode_trueBit m rfl rfl, idbit_start m rfl rfl]

section Command

variable {x : Session} {m : Memory} {disc : Byte}

theorem dispatch_readIdentity (h : x.accumulatedCommand = 0x33#8) : x.dispatch m disc = x.startReport m := by
  rcases dispatch_cases m disc x with ⟨-, e⟩ | ⟨hn, -, -⟩ | ⟨hn, -, -⟩
  · exact e
  · exact absurd h hn
  · exact absurd h hn

theorem dispatch_discover (hr : x.accumulatedCommand ≠ 0x33#8) (h : x.accumulatedCommand = disc) :
    x.dispatch m disc = x.startDiscover m := by
  rcases dispatch_cases m disc x with ⟨hn, -⟩ | ⟨-, -, e⟩ | ⟨-, hn, -⟩
  · exact absurd hn hr
  · exact e
  · exact absurd h hn

theorem dispatch_other (hr : x.accumulatedCommand ≠ 0x33#8) (h : x.accumulatedCommand ≠ disc) :
    x.dispatch m disc = { x with commandState := .idle } := by
  rcases dispatch_cases m disc x with ⟨hn, -⟩ | ⟨-, hn, -⟩ | ⟨-, -, e⟩
  · exact absurd hn hr
  · exact absurd hn h
  · exact e

end Command

/-! ### Eight slots -/

theorem run_succ_of_step {M : Host.Core} {s t : M.State} {k : Nat} (h : M.step s = .next t) :
    M.run (k + 1) s = M.run k t := by
  simp only [Host.Core.run, h]

/-- The slots of `c` from slot `i` on; the latest accumulates its bit or, as the eighth, dispatches the byte. -/
theorem run_writeSlots {x : Session} {c : Byte} {long : Nat → Nat} (hx : AwaitsCommand x) (k : Nat) {i : Nat}
    (hk : i + k = 7) {s : State} {latest : Bool} (hc : configLegal s.cfg = true) (ha : pulseAccepted s = true)
    (hs : s.session = x.hearing c i latest) (hw : ∀ j < 8, CarriesBit s.cfg (c.getLsbD j) (long j))
    (hi : s.input = (List.range' i (k + 1)).map fun j => Input.pulse (long j)) :
    ∃ t, Sys2Proof.core.run (k + 1) s = .next t ∧ t.input = []
      ∧ WriteStepsLeave s t (passEnd (Session.dispatch s.mem s.cfg.cmdDiscover
          (Session.receiving (c.getLsbD 7) { x with accumulatedCommand := c, bitMask := 0x01#8 }))) := by
  have hready : WriteReady s :=
    ⟨hc, ha, by rw [hs]; exact hx.expectingRead, by rw [hs]; exact hx.armed, by rw [hs]; exact hx.timerOverflow⟩
  obtain ⟨t, hstep, htail, ht⟩ := step_writeSlot hready hi (hw i (by omega))
  rw [hs] at ht
  have hrun := run_succ_of_step (M := Sys2Proof.core) (k := k) hstep
  cases k with
  | zero =>
    obtain rfl : i = 7 := hk
    rw [hearing_dispatches hx] at ht
    exact ⟨t, hrun, htail, ht⟩
  | succ k =>
    rw [hearing_accumulates hx (by omega)] at ht
    obtain ⟨u, hu, hempty, hleft⟩ := run_writeSlots hx k (i := i + 1) (by omega) (by rw [ht.cfg]; exact hc) ht.accepted
      ht.session (by rw [ht.cfg]; exact hw) htail
    rw [ht.mem, ht.cfg] at hleft
    exact ⟨u, hrun.trans hu, hempty, ht.trans hleft⟩

/-- Settles O47: seven slots accumulate, the eighth dispatches. -/
theorem eightWriteSlotsSpellTheCommand : Obligations.EightWriteSlotsSpellTheCommand := by
  intro s c long hc ha ho hp hcs he harmed hbi hbm hacc hlong
  have hx : AwaitsCommand s.session := ⟨hcs, he, hp, ho, harmed⟩
  have hs : s.session = s.session.hearing c 0 s.session.pendingBitValue := by
    rw [Session.hearing, spelled_zero, ← hacc, BitVec.shiftLeft_zero, ← hbm]
  obtain ⟨t, hrun, hempty, ht⟩ := run_writeSlots (long := long) hx 7 (i := 0) rfl
    (s := { s with input := (List.range 8).map fun i => Input.pulse (long i) }) hc ha hs hlong
    (by rw [List.range_eq_range'])
  have hdisc : s.cfg.cmdDiscover ≠ 0x33#8 := by
    obtain ⟨-, -, -, -, -, -, -, -, -, -, -, hdisc⟩ := (configLegal_iff s.cfg).1 hc
    exact hdisc
  refine ⟨t, hrun, ht.accepted, ht.mem, ht.cfg, hempty, ht.retBit, ht.retTicks, ht.timerRunning, fun h => ?_,
    fun h => ?_, fun hr hd => ?_⟩
  · rw [ht.session, dispatch_readIdentity h, startReport_eq]
    simp [passEnd, Session.receiving, hp, hbi]
  · rw [ht.session, dispatch_discover (h ▸ hdisc) h, startDiscover_eq]
    simp [passEnd, Session.receiving, hp, hbi, hbm]
  · rw [ht.session, dispatch_other hr hd]
    simp [passEnd, Session.receiving, hp, he, harmed, hbm]

end Sys2Proof.Machine
end

/-! PROOF. The presence waveform (30_encoding R94, 40_pulse_classifier R128): from the release after a RESET to the
return of the handler, whatever the master does. -/
section

namespace Sys2Proof.Machine

/-! ### The polls of the Reset sequence -/

/-- The handler waits at a position with the Timer running at `count`. -/
structure WaitsAt (p : Phase) (drive : Bool) (count : Nat) (s : State) : Prop where
  phase : s.phase = p
  driveLow : s.device.driveLow = drive
  timerRunning : s.device.timerRunning = true
  tau : s.device.tau = count

section Polls

variable {s : State}

theorem presencePoll_waits (hd : s.device.driveLow = true) (hr : s.device.timerRunning = true)
    (hk : s.device.tau < s.cfg.tPres) : WaitsAt .presence true s.device.tau (presencePoll s) := by
  have e : presencePoll s = waitIn .presence s := if_pos hk
  rw [e]
  exact ⟨rfl, hd, hr, rfl⟩

theorem idlePoll_waits (hd : s.device.driveLow = false) (hr : s.device.timerRunning = true)
    (hk : s.device.tau < s.cfg.tIdle) : WaitsAt .idleHold false s.device.tau (idlePoll s) := by
  have e : idlePoll s = waitIn .idleHold s := if_pos hk
  rw [e]
  exact ⟨rfl, hd, hr, rfl⟩

/-- The end of the idle interval begins the presence pulse, with the Timer at zero. -/
theorem idlePoll_asserts (hr : s.device.timerRunning = true) (hp : 0 < s.cfg.tPres)
    (hk : s.cfg.tIdle ≤ s.device.tau) : WaitsAt .presence true 0 (idlePoll s) := by
  have e : idlePoll s = presencePoll (onDevice Device.timerReset (onDevice Device.setDrivenLow s)) :=
    if_neg (Nat.not_lt_of_le hk)
  rw [e]
  exact presencePoll_waits (s := onDevice Device.timerReset (onDevice Device.setDrivenLow s)) rfl hr hp

/-- The release begins the idle interval, with the Timer at zero. -/
theorem releasePoll_idles (hl : s.device.lineNow = true) (hd : s.device.driveLow = false)
    (hr : s.device.timerRunning = true) (hi : 0 < s.cfg.tIdle) : WaitsAt .idleHold false 0 (releasePoll s) := by
  have e : releasePoll s = idlePoll (onDevice Device.timerReset s) := if_pos hl
  rw [e]
  exact idlePoll_waits (s := onDevice Device.timerReset s) hd hr hi

end Polls

/-! ### One tick of the Reset sequence -/

/-- The sample of the line in the next tick sees the driver as this tick leaves it (R111). -/
theorem tick_lineNow (low : Bool) (s : State) :
    (tick low s).device.lineNow = wiredAnd low (tick low s).device.driveLow := rfl

theorem tick_prevLine (low : Bool) (s : State) : (tick low s).device.prevLine = s.device.lineNow := by
  obtain ⟨-, -, -, -, -, -, -, hprev, -⟩ := tick_frame low s
  exact hprev

theorem tick_cfg (low : Bool) (s : State) : (tick low s).cfg = s.cfg := by
  obtain ⟨hcfg, -⟩ := tick_frame low s
  exact hcfg

/-- The beginning of a tick, in which the strobe output of the last tick ends. -/
def tickBegun (s : State) : State := onDevice (fun d => { d with debugStrobe := false }) s

section Ticks

variable {s : State} {p : Phase} {drive : Bool} {k : Nat}

/-- A tick whose statements leave the handler waiting, with the Timer at `k`. -/
theorem WaitsAt.after_tick (h : WaitsAt p drive k (handlerTick (tickBegun s))) (hb : k + 1 < 2 ^ s.cfg.timerBits)
    (low : Bool) : WaitsAt p drive (k + 1) (tick low s) where
  phase := h.phase
  driveLow := h.driveLow
  timerRunning := h.timerRunning
  tau := by
    have hcfg : (handlerTick (tickBegun s)).cfg = s.cfg := (kept_handlerTick (tickBegun s)).cfg
    show tauNext (handlerTick (tickBegun s)).cfg (handlerTick (tickBegun s)).device = _
    rw [tauNext, if_pos h.timerRunning, h.tau, hcfg, timerValue, Nat.mod_eq_of_lt hb]

theorem waitsAt_idle_of_release (hc : configLegal s.cfg = true) (hp : s.phase = .relWait)
    (hl : s.device.lineNow = true) (hd : s.device.driveLow = false) (hr : s.device.timerRunning = true) (low : Bool) :
    WaitsAt .idleHold false 1 (tick low s) := by
  obtain ⟨-, -, -, -, -, -, -, hi1, hib, -⟩ := (configLegal_iff s.cfg).1 hc
  have h : handlerTick (tickBegun s) = releasePoll (tickBegun s) := by simp [handlerTick, tickBegun, hp]
  exact WaitsAt.after_tick (k := 0) (h ▸ releasePoll_idles (s := tickBegun s) hl hd hr hi1) (by omega) low

theorem handlerTick_idleHold (h : WaitsAt .idleHold drive k s) :
    handlerTick (tickBegun s) = idlePoll (tickBegun s) := by
  simp [handlerTick, tickBegun, h.phase]

theorem handlerTick_presence (h : WaitsAt .presence drive k s) :
    handlerTick (tickBegun s) = presencePoll (tickBegun s) := by
  simp [handlerTick, tickBegun, h.phase]

theorem waitsAt_idle_succ (hc : configLegal s.cfg = true) (h : WaitsAt .idleHold false k s) (hk : k < s.cfg.tIdle)
    (low : Bool) : WaitsAt .idleHold false (k + 1) (tick low s) := by
  obtain ⟨-, -, -, -, -, -, -, -, hib, -⟩ := (configLegal_iff s.cfg).1 hc
  obtain rfl := h.tau
  exact WaitsAt.after_tick (handlerTick_idleHold h ▸ idlePoll_waits (s := tickBegun s) h.driveLow h.timerRunning hk)
    (show s.device.tau + 1 < _ by omega) low

theorem waitsAt_presence_of_idle (hc : configLegal s.cfg = true) (h : WaitsAt .idleHold false s.cfg.tIdle s)
    (low : Bool) : WaitsAt .presence true 1 (tick low s) := by
  obtain ⟨-, -, -, -, -, -, -, -, -, hp1, hpb, -⟩ := (configLegal_iff s.cfg).1 hc
  exact WaitsAt.after_tick (k := 0)
    (handlerTick_idleHold h ▸ idlePoll_asserts (s := tickBegun s) h.timerRunning hp1 h.tau.ge) (by omega) low

theorem waitsAt_presence_succ (hc : configLegal s.cfg = true) (h : WaitsAt .presence true k s) (hk : k < s.cfg.tPres)
    (low : Bool) : WaitsAt .presence true (k + 1) (tick low s) := by
  obtain ⟨-, -, -, -, -, -, -, -, -, -, hpb, -⟩ := (configLegal_iff s.cfg).1 hc
  obtain rfl := h.tau
  exact WaitsAt.after_tick (handlerTick_presence h ▸ presencePoll_waits (s := tickBegun s) h.driveLow h.timerRunning hk)
    (show s.device.tau + 1 < _ by omega) low

/-- What the return tick of the Reset sequence leaves: the pending flag is that of an edge of this very tick, which wins
over the clear (60_exceptions R229). -/
structure ReturnedFromReset (s t : State) : Prop where
  phase : t.phase = .wait
  driveLow : t.device.driveLow = false
  timerOverflow : t.session.timerOverflow = false
  timerRunning : t.device.timerRunning = false
  irqPending : t.device.irqPending = (s.device.prevLine && !s.device.lineNow)

theorem returned_of_presence (h : WaitsAt .presence drive s.cfg.tPres s) (low : Bool) :
    ReturnedFromReset s (tick low s) := by
  have hpoll : presencePoll (tickBegun s) = exitHandler (onDevice Device.clearPending
      (onSession (fun x => { x with timerOverflow := false }) (onDevice Device.setInputMode (tickBegun s)))) :=
    if_neg (Nat.not_lt_of_le h.tau.ge)
  have htick : tick low s = endOfTick low (presencePoll (tickBegun s)) :=
    congrArg (endOfTick low) (handlerTick_presence h)
  rw [htick, hpoll]
  refine ⟨rfl, rfl, ?_, rfl, ?_⟩
  · rw [endOfTick_session low (timerWraps_of_stopped rfl)]
    rfl
  · show ((s.device.irqPending && !true) || (s.device.prevLine && !s.device.lineNow)) = _
    rw [Bool.not_true, Bool.and_false, Bool.false_or]

end Ticks

/-! ### The waveform from the release -/

theorem tickList_concat (lows : List Bool) (low : Bool) (s : State) :
    tickList (lows ++ [low]) s = tick low (tickList lows s) := tickList_append lows [low] s

/-- The last tick of a sequence of `n + 1`. -/
theorem exists_concat_of_length {lows : List Bool} {n : Nat} (h : lows.length = n + 1) :
    ∃ init low, lows = init ++ [low] ∧ init.length = n := by
  rcases lows.eq_nil_or_concat' with rfl | ⟨init, low, rfl⟩
  · cases h
  · rw [List.length_append] at h
    exact ⟨init, low, rfl, Nat.succ.inj h⟩

theorem tickList_cfg (lows : List Bool) (s : State) : (tickList lows s).cfg = s.cfg := by
  induction lows generalizing s with
  | nil => rfl
  | cons low lows ih => exact (ih (tick low s)).trans (tick_cfg low s)

/-- The first high tick after a RESET (R128). -/
structure Released (s : State) : Prop where
  legal : configLegal s.cfg = true
  phase : s.phase = .relWait
  lineNow : s.device.lineNow = true
  driveLow : s.device.driveLow = false
  timerRunning : s.device.timerRunning = true

section Waveform

variable {s : State} {lows : List Bool}

theorem Released.legal_tickList (hs : Released s) (lows : List Bool) : configLegal (tickList lows s).cfg = true := by
  rw [tickList_cfg]
  exact hs.legal

/-- The idle interval: ticks `t_r + 1` to `t_r + T_IDLE`. -/
theorem Released.idles (hs : Released s) {k : Nat} (h1 : 1 ≤ k) (hk : k ≤ s.cfg.tIdle) (h : lows.length = k) :
    WaitsAt .idleHold false k (tickList lows s) := by
  induction k, h1 using Nat.le_induction generalizing lows with
  | base =>
    obtain ⟨init, low, rfl, hinit⟩ := exists_concat_of_length h
    obtain rfl := List.length_eq_zero_iff.mp hinit
    exact waitsAt_idle_of_release hs.legal hs.phase hs.lineNow hs.driveLow hs.timerRunning low
  | succ k hk1 ih =>
    obtain ⟨init, low, rfl, hinit⟩ := exists_concat_of_length h
    rw [tickList_concat]
    exact waitsAt_idle_succ (hs.legal_tickList init) (ih (by omega) hinit) (by rw [tickList_cfg]; omega) low

/-- The presence pulse: ticks `t_r + T_IDLE + 1` to `t_r + T_IDLE + T_PRES`. -/
theorem Released.presents (hs : Released s) {k : Nat} (h1 : 1 ≤ k) (hk : k ≤ s.cfg.tPres)
    (h : lows.length = s.cfg.tIdle + k) : WaitsAt .presence true k (tickList lows s) := by
  induction k, h1 using Nat.le_induction generalizing lows with
  | base =>
    obtain ⟨-, -, -, -, -, -, -, hi1, -⟩ := (configLegal_iff s.cfg).1 hs.legal
    obtain ⟨init, low, rfl, hinit⟩ := exists_concat_of_length h
    rw [tickList_concat]
    exact waitsAt_presence_of_idle (hs.legal_tickList init) (by rw [tickList_cfg]; exact hs.idles hi1 le_rfl hinit) low
  | succ k hk1 ih =>
    obtain ⟨init, low, rfl, hinit⟩ := exists_concat_of_length (n := s.cfg.tIdle + k) h
    rw [tickList_concat]
    exact waitsAt_presence_succ (hs.legal_tickList init) (ih (by omega) hinit) (by rw [tickList_cfg]; omega) low

/-- While the slave drives it, the line is low (10_state R21). -/
theorem Released.presents_low (hs : Released s) {k : Nat} (h1 : 1 ≤ k) (hk : k ≤ s.cfg.tPres)
    (h : lows.length = s.cfg.tIdle + k) : (tickList lows s).device.lineNow = false := by
  have hdrive := (hs.presents h1 hk h).driveLow
  obtain ⟨init, low, rfl, -⟩ := exists_concat_of_length (lows := lows) (n := s.cfg.tIdle + k - 1) (by omega)
  rw [tickList_concat] at hdrive ⊢
  rw [tick_lineNow, hdrive, wiredAnd, Bool.or_true, Bool.not_true]

/-- In the idle interval the line follows the master. -/
theorem Released.idles_lineNow (hs : Released s) {k : Nat} (h1 : 1 ≤ k) (hk : k ≤ s.cfg.tIdle) (h : lows.length = k) :
    (tickList lows s).device.lineNow = !(lows.getD (k - 1) false) := by
  have hdrive := (hs.idles h1 hk h).driveLow
  obtain ⟨init, low, rfl, hinit⟩ := exists_concat_of_length (lows := lows) (n := k - 1) (by omega)
  rw [tickList_concat] at hdrive ⊢
  rw [tick_lineNow, hdrive, wiredAnd, Bool.or_false, ← hinit]
  simp

/-- The return tick follows the presence pulse. -/
theorem Released.returns (hs : Released s) (h : lows.length = s.cfg.tIdle + s.cfg.tPres + 1) :
    ReturnedFromReset (tickList lows.dropLast s) (tickList lows s) := by
  obtain ⟨-, -, -, -, -, -, -, -, -, hp1, -⟩ := (configLegal_iff s.cfg).1 hs.legal
  obtain ⟨init, low, rfl, hinit⟩ := exists_concat_of_length h
  rw [List.dropLast_concat, tickList_concat]
  exact returned_of_presence (drive := true) (by rw [tickList_cfg]; exact hs.presents hp1 le_rfl hinit) low

/-- The edge seen in the return tick: that of the slave's own assertion, if the pulse is one tick long and the line was
high before it (60_exceptions R229; assumption 14). -/
theorem Released.edge_at_return (hs : Released s) (h : lows.length = s.cfg.tIdle + s.cfg.tPres) :
    let last := (tickList lows s).device
    (last.prevLine && !last.lineNow) =
      (decide (s.cfg.tPres = 1) && !(lows.getD (s.cfg.tIdle - 1) false)) := by
  obtain ⟨-, -, -, -, -, -, -, hi1, -, hp1, -⟩ := (configLegal_iff s.cfg).1 hs.legal
  intro last
  have hlow : last.lineNow = false := hs.presents_low hp1 le_rfl h
  obtain ⟨init, low, rfl, hinit⟩ :=
    exists_concat_of_length (lows := lows) (n := s.cfg.tIdle + s.cfg.tPres - 1) (by omega)
  have hprev : last.prevLine = (tickList init s).device.lineNow := by
    rw [← tick_prevLine low, ← tickList_concat]
  rw [hlow, hprev, Bool.not_false, Bool.and_true]
  by_cases hone : s.cfg.tPres = 1
  · rw [hs.idles_lineNow hi1 le_rfl (by omega), List.getD_append _ _ _ _ (by omega), decide_eq_true hone, Bool.true_and]
  · rw [hs.presents_low (k := s.cfg.tPres - 1) (by omega) (by omega) (by omega), decide_eq_false hone, Bool.false_and]

/-- The slave holds the line low in the presence pulse and in no other tick up to the return. -/
theorem Released.driveLow_iff (hs : Released s) (h : lows.length ≤ s.cfg.tIdle + s.cfg.tPres + 1) :
    (tickList lows s).device.driveLow
      = (decide (s.cfg.tIdle + 1 ≤ lows.length) && decide (lows.length ≤ s.cfg.tIdle + s.cfg.tPres)) := by
  rcases Nat.eq_zero_or_pos lows.length with h0 | h1
  · obtain rfl := List.length_eq_zero_iff.mp h0
    simpa [tickList] using hs.driveLow
  by_cases hidle : lows.length ≤ s.cfg.tIdle
  · rw [(hs.idles h1 hidle rfl).driveLow, decide_eq_false (by omega), Bool.false_and]
  by_cases hpres : lows.length ≤ s.cfg.tIdle + s.cfg.tPres
  · rw [(hs.presents (k := lows.length - s.cfg.tIdle) (by omega) (by omega) (by omega)).driveLow,
      decide_eq_true (by omega), decide_eq_true hpres, Bool.true_and]
  · rw [(hs.returns (by omega)).driveLow, decide_eq_false hpres, Bool.and_false]

end Waveform

/-- Settles O56: the ticks from the release are those of the idle interval, the presence pulse and the return. -/
theorem presencePulseIsTimedFromTheRelease : Obligations.PresencePulseIsTimedFromTheRelease := by
  intro s lows hc hp hl hd hr hn
  have hs : Released s := ⟨hc, hp, hl, hd, hr⟩
  refine ⟨hs.driveLow_iff hn, fun hlen => ?_⟩
  have hret := hs.returns hlen
  have hedge := hs.edge_at_return (lows := lows.dropLast) (by rw [List.length_dropLast]; omega)
  refine ⟨hret.phase, hret.timerOverflow, hret.timerRunning, hret.irqPending, fun htwo => ?_, fun hone => ?_⟩
  · rw [hret.irqPending, hedge, decide_eq_false (by omega), Bool.false_and]
  · obtain ⟨init, low, rfl, hinit⟩ := exists_concat_of_length hlen
    rw [hret.irqPending, hedge, decide_eq_true hone, Bool.true_and, List.dropLast_concat,
      List.getD_append _ _ _ _ (by omega)]

end Sys2Proof.Machine
end

/-! PROOF. A step on a tick, on the power-on port and on a refused pulse (40_pulse_classifier R111, R131), and the
steps of the handler called by themselves (R126 to R129). -/
section

namespace Sys2Proof.Machine

open Sys2Proof.Safety

/-! ### The step -/

theorem step_silence {s : State} (hc : configLegal s.cfg = true) (hi : s.input = []) :
    step s = .next (tick false s) := by
  simp only [step, hc, hi, if_true]

theorem step_tick {s : State} {low : Bool} {rest : List Input} (hc : configLegal s.cfg = true)
    (hi : s.input = .tick low :: rest) : step s = .next (tick low { s with input := rest }) := by
  simp only [step, hc, hi, if_true]

theorem step_por {s : State} {low : Bool} {rest : List Input} (hc : configLegal s.cfg = true)
    (hi : s.input = .por low :: rest) : step s = .next (boot low { s with input := rest }) := by
  simp only [step, hc, hi, if_true]

theorem step_pulse_refused {s : State} {n : Nat} {rest : List Input} (hc : configLegal s.cfg = true)
    (hi : s.input = .pulse n :: rest) (ha : pulseAccepted s = false) : step s = .refused .stimulusNotWellFormed := by
  simp only [step, hc, hi, ha, if_true, Bool.false_eq_true, if_false]

/-- Settles O7: the three kinds of step, the boot sequence being the power-on state. -/
theorem stepPassesATickOrPowersOn : Obligations.StepPassesATickOrPowersOn := by
  intro s low rest hc
  refine ⟨step_silence hc, step_tick hc, fun hi => ?_⟩
  rw [step_por hc hi, boot_eq_powerOn]

/-- Settles O9: each of the five conditions contradicts one that an accepted pulse needs. -/
theorem pulseWhileBusyPendingOrUnseenIsRefused : Obligations.PulseWhileBusyPendingOrUnseenIsRefused := by
  intro s n rest hc hi hbad
  refine step_pulse_refused hc hi (Bool.eq_false_iff.mpr fun ha => ?_)
  obtain ⟨hphase, hpending, henable, hdrive, hline⟩ := (pulseAccepted_iff s).1 ha
  rcases hbad with h | h | h | h | h
  · exact h hphase
  · exact absurd (hpending.symm.trans h) (by decide)
  · exact absurd (henable.symm.trans h) (by decide)
  · exact absurd (hdrive.symm.trans h) (by decide)
  · exact absurd (hline.symm.trans h) (by decide)

/-! ### The steps of the handler -/

/-- Settles O37, by the two branches of R126. -/
theorem rearmSwitchesOrPreparesTheNextBit : Obligations.RearmSwitchesOrPreparesTheNextBit := by
  intro s
  have hexec : exec .rearm s = .next { s with session := s.session.rearm s.mem } := rfl
  rw [hexec]
  refine ⟨fun hd => ?_, fun hd => ⟨_, rfl, ?_⟩⟩
  · rw [rearm_of_deferred _ hd]
  · rw [rearm_of_not_deferred _ hd]
    rfl

theorem exec_resetFinalisation_of_clear {s : State} (h : s.session.possibleReset = false) :
    exec .resetFinalisation s = .next s :=
  congrArg Host.Outcome.next (if_neg (by rw [h]; decide))

theorem exec_resetFinalisation_of_set {s : State} (h : s.session.possibleReset = true) :
    exec .resetFinalisation s = .next (finalisationPoll id s) :=
  congrArg Host.Outcome.next (if_pos h)

/-- The overflow flag or the threshold runs RESET, whatever the line (R114, R127). -/
theorem finalisationPoll_runs_reset {released : State → State} {s : State}
    (h : s.session.timerOverflow = true ∨ s.cfg.tRstMin ≤ s.device.tau) :
    finalisationPoll released s = resetSequence (onSession (fun x => { x with possibleReset := false }) s) :=
  if_pos (by rw [Bool.or_eq_true, decide_eq_true_eq]; exact h)

/-- Settles O38, by the three cases of the poll. -/
theorem resetFinalisationPollsTimerThenLine : Obligations.ResetFinalisationPollsTimerThenLine := by
  intro s u
  refine ⟨exec_resetFinalisation_of_clear, fun hp => ?_⟩
  rw [exec_resetFinalisation_of_set hp]
  refine ⟨fun hreset => ⟨_, rfl, ?_⟩, fun ho ht => ⟨fun hl => ?_, fun hl => ?_⟩⟩
  · rw [finalisationPoll_runs_reset hreset]
    rfl
  · rw [finalisationPoll_released ho ht hl]
    rfl
  · rw [finalisationPoll_waits ho ht hl]
    rfl

/-- Settles O39: the Reset sequence waits for the release, or on a high line for the end of the idle interval, which
is at least one tick long. -/
theorem resetRunsUpToItsFirstWait : Obligations.ResetRunsUpToItsFirstWait := by
  intro s hc
  obtain ⟨-, -, -, -, -, -, -, hidle, -⟩ := (configLegal_iff s.cfg).1 hc
  have hexec : exec .reset s = .next (releasePoll (engineReset (emit .reset s))) := rfl
  refine ⟨_, rfl, fun hl => ?_, fun hl => ?_⟩
  · have hpoll : releasePoll (engineReset (emit .reset s)) = waitIn .relWait (engineReset (emit .reset s)) :=
      if_neg (by simp [line, hl])
    rw [hexec, hpoll]
    rfl
  · have hpoll : releasePoll (engineReset (emit .reset s)) =
        idlePoll (onDevice Device.timerReset (engineReset (emit .reset s))) := if_pos hl
    have hwait : idlePoll (onDevice Device.timerReset (engineReset (emit .reset s))) =
        waitIn .idleHold (onDevice Device.timerReset (engineReset (emit .reset s))) := if_pos hidle
    rw [hexec, hpoll, hwait]
    rfl

/-- Settles O40. -/
theorem handlerExitRecordsTheFastPathFlag : Obligations.HandlerExitRecordsTheFastPathFlag := fun _ => rfl

end Sys2Proof.Machine
end

/-! PROOF. What each F-PULSE row leaves, from any state (40_pulse_classifier R120 to R125). -/
section

namespace Sys2Proof.Machine

open Sys2Proof.Safety

/-- Settles O41: a glitch pass begins, settles and returns, with no statement on the session. -/
theorem glitchLeavesTheSessionUnchanged : Obligations.GlitchLeavesTheSessionUnchanged := fun _ _ => ⟨rfl, rfl⟩

/-! ### The conclusion of a pass, from any state -/

/-- A pass that has delivered its slot and is not yet concluded: its event, the session state, the line driver and the
pending flag. -/
def passDelivered (s : State) (drive pending : Bool) (e : BusEvent) (x : Session) : State :=
  { beginPass s with
    session := x
    device := { (beginPass s).device with driveLow := drive, irqPending := pending }
    events := [e] }

section Conclusion

variable {s : State} {drive pending reached : Bool} {count : Nat} {e : BusEvent} {x : Session}

/-- Without RESET: the line has released below the threshold, or PR is clear (R127, R129). -/
theorem concludePass_delivered (h : (x.possibleReset && (reached || x.timerOverflow)) = false) :
    concludePass reached count (passDelivered s drive pending e x) =
      afterPass s drive pending count [e] (passEnd x) := by
  rw [concludePass_released h]
  rfl

/-- With RESET, which leaves nothing of the session but PBV, nor of the line driver and the pending flag (R128). -/
theorem concludePass_delivered_reset (h : (x.possibleReset && (reached || x.timerOverflow)) = true) :
    concludePass reached count (passDelivered s drive pending e x) =
      afterResetPass s [e, .reset] x.pendingBitValue := by
  rw [concludePass_reset h]
  rfl

/-- A slot that sets PR is concluded without RESET when the threshold is not reached and TO is clear. -/
theorem concludePass_slot (hp : x.possibleReset = true) (ho : x.timerOverflow = false) :
    concludePass false count (passDelivered s drive pending e x) =
      afterPass s drive pending count [e] (passEnd x) :=
  concludePass_delivered (by rw [hp, ho]; rfl)

/-- A slot that sets PR ends in a RESET when the threshold is reached or TO is set (R127, 30_encoding R93). -/
theorem concludePass_slot_reset (hp : x.possibleReset = true) (h : reached = true ∨ x.timerOverflow = true) :
    concludePass reached count (passDelivered s drive pending e x) =
      afterResetPass s [e, .reset] x.pendingBitValue :=
  concludePass_delivered_reset (by rw [hp, Bool.true_and, Bool.or_eq_true]; exact h)

end Conclusion

/-! ### The passes, each as the conclusion of its slot -/

/-- The session after a write slot has reached the engine, with PR as the pass has set it (R122, R123). -/
def writeDelivered (s : State) (bit possibleReset : Bool) : Session :=
  { s.session with pendingBitValue := bit, possibleReset := possibleReset }.onWriteBit s.mem s.cfg.cmdDiscover bit

/-- The session after a read slot has rearmed, with PR set (R124, R125). -/
def readRearmed (s : State) : Session := { s.session.rearm s.mem with possibleReset := true }

section Passes

variable (s : State) (reached : Bool)

theorem write1Pass_concludes :
    write1Pass s = concludePass false s.lowTicks (passDelivered s s.device.driveLow false .write1
      (writeDelivered s true s.session.possibleReset)) := rfl

theorem write0Pass_concludes :
    write0Pass reached s = concludePass reached s.lowTicks (passDelivered s s.device.driveLow false .write0
      (writeDelivered s false true)) := rfl

theorem read1Pass_concludes :
    read1Pass reached s =
      concludePass reached s.lowTicks (passDelivered s s.device.driveLow false .read1 (readRearmed s)) := rfl

theorem read0Pass_concludes :
    read0Pass reached s =
      concludePass reached (read0Return s) (passDelivered s false false .read0 (readRearmed s)) := rfl

theorem read0PhantomPass_concludes :
    read0PhantomPass s =
      concludePass false (read0Return s) (passDelivered s false true .read0 (readRearmed s)) := rfl

/-- The engine leaves PR and TO as the handler set them (R160). -/
theorem writeDelivered_possibleReset (bit possibleReset : Bool) :
    (writeDelivered s bit possibleReset).possibleReset = possibleReset :=
  (onWriteBit_flags _ _ _ _).possibleReset

theorem writeDelivered_timerOverflow (bit possibleReset : Bool) :
    (writeDelivered s bit possibleReset).timerOverflow = s.session.timerOverflow :=
  (onWriteBit_flags _ _ _ _).timerOverflow

theorem readRearmed_timerOverflow : (readRearmed s).timerOverflow = s.session.timerOverflow :=
  (rearm_flags _ _).timerOverflow

end Passes

/-- Rearming ends a pass as `rearm()` called by itself leaves the session: PR is cleared whatever it was. -/
theorem passEnd_readRearmed (s : State) : passEnd (readRearmed s) = passEnd (s.session.rearm s.mem) := rfl

/-! ### The obligations -/

/-- Settles O42: the bit is delivered with PR and TO as they were at entry, and those two decide the RESET. -/
theorem writeOneDeliversTheBit : Obligations.WriteOneDeliversTheBit := by
  intro s b k
  have hshort : exec (.write1Short b) s = .next (write1Pass s) := rfl
  have hband : exec (.write1BandB k) s = .next (write1Pass s) := rfl
  have hreset : ((writeDelivered s true s.session.possibleReset).possibleReset
      && (false || (writeDelivered s true s.session.possibleReset).timerOverflow))
        = (s.session.possibleReset && s.session.timerOverflow) := by
    rw [writeDelivered_possibleReset, writeDelivered_timerOverflow, Bool.false_or]
  rw [hshort, hband, write1Pass_concludes]
  refine ⟨_, rfl, fun h => ?_, fun h => ?_⟩
  · rw [concludePass_delivered (hreset.trans h)]
    exact ⟨rfl, rfl⟩
  · rw [concludePass_delivered_reset (hreset.trans h)]
    exact ⟨rfl, rfl⟩

/-- Settles O43: the slot sets PR, so TO or the Reset threshold decides. -/
theorem writeZeroDeliversTheBitOrResets : Obligations.WriteZeroDeliversTheBitOrResets := by
  intro s k
  have hshort : exec (.write0 k) s = .next (write0Pass false s) := rfl
  have hlong : exec (.write0Reset k) s = .next (write0Pass true s) := rfl
  have hp := writeDelivered_possibleReset s false true
  have ho := writeDelivered_timerOverflow s false true
  rw [hshort, hlong, write0Pass_concludes, write0Pass_concludes]
  refine ⟨_, rfl, fun h => ?_, fun h => ?_, ?_⟩
  · rw [concludePass_slot hp (ho.trans h)]
    rfl
  · rw [concludePass_slot_reset hp (.inr (ho.trans h))]
    rfl
  · rw [concludePass_slot_reset hp (.inl rfl)]
    rfl

/-- Settles O44: rearming sets PR, so TO or the Reset threshold decides; the driver is not touched. -/
theorem readOneRearmsOrResets : Obligations.ReadOneRearmsOrResets := by
  intro s k b
  have hshort : exec (.read1 k b) s = .next (read1Pass false s) := rfl
  have hlong : exec (.read1Reset k) s = .next (read1Pass true s) := rfl
  have ho := readRearmed_timerOverflow s
  rw [hshort, hlong, read1Pass_concludes, read1Pass_concludes]
  refine ⟨_, rfl, fun h => ?_, fun h => ?_, ?_⟩
  · rw [concludePass_slot rfl (ho.trans h), passEnd_readRearmed]
    rfl
  · rw [concludePass_slot_reset rfl (.inr (ho.trans h))]
    rfl
  · rw [concludePass_slot_reset rfl (.inl rfl)]
    rfl

/-- Settles O45: in every band the driver ends released; the phantom pass of band Z differs in the pending flag
alone. -/
theorem readZeroRearmsOrResets : Obligations.ReadZeroRearmsOrResets := by
  intro s k b
  have hbandA : exec (.read0BandA k) s = .next (read0Pass false s) := rfl
  have hbandBC : exec (.read0BandBC k b) s = .next (read0Pass false s) := rfl
  have hbandZ : exec .read0BandZ s = .next (read0PhantomPass s) := rfl
  have hlong : exec (.read0Reset k) s = .next (read0Pass true s) := rfl
  have ho := readRearmed_timerOverflow s
  rw [hbandA, hbandBC, hbandZ, hlong, read0Pass_concludes, read0Pass_concludes, read0PhantomPass_concludes]
  refine ⟨_, rfl, fun h => ?_, fun h => ?_, ?_⟩
  · rw [concludePass_slot rfl (ho.trans h), concludePass_slot rfl (ho.trans h), passEnd_readRearmed]
    exact ⟨rfl, rfl, rfl⟩
  · rw [concludePass_slot_reset rfl (.inr (ho.trans h)), concludePass_slot_reset rfl (.inr (ho.trans h))]
    exact ⟨rfl, rfl, rfl⟩
  · rw [concludePass_slot_reset rfl (.inl rfl)]
    rfl

end Sys2Proof.Machine
end

/-! PROOF. The debug strobe (40_pulse_classifier R132): no statement of the handler reads it, and it marks the fast
path's assertion. -/
section

namespace Sys2Proof.Machine

/-! ### Two blocks that differ in the strobe -/

/-- The block with another DEBUG_STROBE option and another strobe output. -/
def State.restrobed (option output : Bool) (s : State) : State :=
  { s with
    cfg := { s.cfg with debugStrobe := option }
    device := { s.device with debugStrobe := output } }

/-- `f` takes two blocks that differ in the strobe to two such blocks. -/
def IgnoresStrobe (f : State → State) : Prop :=
  ∀ (option output : Bool) (s : State), ∃ output', f (s.restrobed option output) = (f s).restrobed option output'

/-- What commutes with the change of the strobe ignores it; what has no strobe in it commutes by unfolding. -/
theorem ignoresStrobe_of_commutes {f : State → State}
    (h : ∀ option output s, f (s.restrobed option output) = (f s).restrobed option output := by intros; rfl) :
    IgnoresStrobe f :=
  fun option output s => ⟨output, h option output s⟩

theorem IgnoresStrobe.comp {f g : State → State} (hg : IgnoresStrobe g) (hf : IgnoresStrobe f) :
    IgnoresStrobe fun s => g (f s) := by
  intro option output s
  obtain ⟨o₁, h₁⟩ := hf option output s
  obtain ⟨o₂, h₂⟩ := hg option o₁ (f s)
  exact ⟨o₂, (congrArg g h₁).trans h₂⟩

/-- A branch on a condition that does not read the strobe. -/
theorem IgnoresStrobe.ite {c : State → Prop} [DecidablePred c] {f g : State → State} (hf : IgnoresStrobe f)
    (hg : IgnoresStrobe g) (hc : ∀ option output s, c (s.restrobed option output) ↔ c s := by intros; exact Iff.rfl) :
    IgnoresStrobe fun s => if c s then f s else g s := by
  intro option output s
  simp only [hc option output s]
  split
  · exact hf option output s
  · exact hg option output s

/-! ### The polls -/

theorem ignoresStrobe_exitHandler : IgnoresStrobe exitHandler := ignoresStrobe_of_commutes

theorem ignoresStrobe_waitIn (p : Phase) : IgnoresStrobe (waitIn p) := ignoresStrobe_of_commutes

theorem ignoresStrobe_clearPossibleReset : IgnoresStrobe (onSession fun x => { x with possibleReset := false }) :=
  ignoresStrobe_of_commutes

theorem ignoresStrobe_presencePoll : IgnoresStrobe presencePoll :=
  (ignoresStrobe_waitIn .presence).ite ignoresStrobe_of_commutes

theorem ignoresStrobe_idlePoll : IgnoresStrobe idlePoll :=
  (ignoresStrobe_waitIn .idleHold).ite
    (ignoresStrobe_presencePoll.comp (f := fun s => onDevice Device.timerReset (onDevice Device.setDrivenLow s))
      ignoresStrobe_of_commutes)

theorem ignoresStrobe_releasePoll : IgnoresStrobe releasePoll :=
  (ignoresStrobe_idlePoll.comp (f := onDevice Device.timerReset) ignoresStrobe_of_commutes).ite
    (ignoresStrobe_waitIn .relWait)

theorem ignoresStrobe_resetSequence : IgnoresStrobe resetSequence :=
  ignoresStrobe_releasePoll.comp (f := fun s => engineReset (emit .reset s)) ignoresStrobe_of_commutes

theorem ignoresStrobe_finalisationPoll {released : State → State} (hr : IgnoresStrobe released) :
    IgnoresStrobe (finalisationPoll released) :=
  (ignoresStrobe_resetSequence.comp ignoresStrobe_clearPossibleReset).ite
    ((hr.comp ignoresStrobe_clearPossibleReset).ite (ignoresStrobe_waitIn .rstPoll))

theorem ignoresStrobe_afterClassification : IgnoresStrobe afterClassification :=
  (ignoresStrobe_finalisationPoll ignoresStrobe_exitHandler).ite ignoresStrobe_exitHandler

theorem ignoresStrobe_exitGlitch : IgnoresStrobe exitGlitch := ignoresStrobe_of_commutes

theorem ignoresStrobe_readDelivered (e : BusEvent) : IgnoresStrobe (readDelivered e) :=
  ignoresStrobe_of_commutes

theorem ignoresStrobe_writePoll : IgnoresStrobe writePoll :=
  (ignoresStrobe_afterClassification.comp (f := write0Delivered) ignoresStrobe_of_commutes).ite
    ((ignoresStrobe_exitGlitch.ite
        (ignoresStrobe_afterClassification.comp (f := write1Delivered) ignoresStrobe_of_commutes)).ite
      (ignoresStrobe_waitIn .wPoll))

theorem ignoresStrobe_holdPoll : IgnoresStrobe holdPoll :=
  (ignoresStrobe_waitIn .r0Hold).ite
    ((ignoresStrobe_afterClassification.comp (ignoresStrobe_readDelivered .read0)).comp
      (f := onDevice Device.setInputMode) ignoresStrobe_of_commutes)

/-! ### The fast path, the one writer of the strobe -/

/-- The assertion with its strobe (R125, R132). -/
def assertFast (s : State) : State :=
  onDevice (fun d => if s.cfg.debugStrobe then d.strobe else d) (onDevice Device.setDrivenLow s)

theorem fastPath_eq (s : State) :
    fastPath s = if s.cfg.skip && line s then exitGlitch s else holdPoll (assertFast s) := rfl

/-- The assertion writes the driver and the strobe output alone. -/
theorem assertFast_eq (s : State) :
    assertFast s = { s with device := { s.device with
      driveLow := true, debugStrobe := s.cfg.debugStrobe || s.device.debugStrobe } } := by
  cases h : s.cfg.debugStrobe <;> simp [assertFast, onDevice, h, Device.strobe, Device.setDrivenLow]

/-- Whichever option, the assertion differs in the strobe output alone. -/
theorem ignoresStrobe_assertFast : IgnoresStrobe assertFast := by
  intro option output s
  refine ⟨option || output, ?_⟩
  rw [assertFast_eq, assertFast_eq]
  rfl

theorem ignoresStrobe_fastPath : IgnoresStrobe fastPath :=
  ignoresStrobe_exitGlitch.ite (ignoresStrobe_holdPoll.comp ignoresStrobe_assertFast)

/-! ### A tick -/

/-- The Timer is zeroed and started at the first action (R112). -/
def actionBegun (s : State) : State := onDevice (fun d => d.timerReset.timerStart) { s with latCount := 0 }

/-- The classification that `armed` and ER select (R113). -/
theorem ignoresStrobe_firstAction : IgnoresStrobe firstAction :=
  (ignoresStrobe_fastPath.ite (c := fun s => s.session.read0Armed = true)
    ((ignoresStrobe_afterClassification.comp (ignoresStrobe_readDelivered .read1)).ite
      (c := fun s => s.session.expectingRead = true) ignoresStrobe_writePoll)).comp
    (f := actionBegun) ignoresStrobe_of_commutes

theorem ignoresStrobe_takeInterrupt : IgnoresStrobe takeInterrupt := ignoresStrobe_of_commutes

theorem ignoresStrobe_enterHandler : IgnoresStrobe enterHandler :=
  (ignoresStrobe_firstAction.comp ignoresStrobe_takeInterrupt).ite ignoresStrobe_takeInterrupt

/-- A tick of the latency is counted. -/
def latencyCounted (s : State) : State := { s with latCount := s.latCount + 1 }

theorem ignoresStrobe_latencyCounted : IgnoresStrobe latencyCounted := ignoresStrobe_of_commutes

theorem ignoresStrobe_latencyPoll : IgnoresStrobe latencyPoll :=
  (ignoresStrobe_firstAction.comp ignoresStrobe_latencyCounted).ite ignoresStrobe_latencyCounted

theorem ignoresStrobe_handlerTick : IgnoresStrobe handlerTick := by
  intro option output s
  unfold handlerTick
  rw [show (s.restrobed option output).phase = s.phase from rfl]
  cases s.phase with
  | wait =>
    exact (ignoresStrobe_enterHandler.ite (g := id) (c := fun s => interruptTaken s = true)
      ignoresStrobe_of_commutes) option output s
  | lat => exact ignoresStrobe_latencyPoll option output s
  | wPoll => exact ignoresStrobe_writePoll option output s
  | r0Hold => exact ignoresStrobe_holdPoll option output s
  | rstPoll => exact ignoresStrobe_finalisationPoll ignoresStrobe_exitHandler option output s
  | relWait => exact ignoresStrobe_releasePoll option output s
  | idleHold => exact ignoresStrobe_idlePoll option output s
  | presence => exact ignoresStrobe_presencePoll option output s

/-- The strobe output of the last tick ends with it, and the end of the tick does not read the strobe. -/
theorem ignoresStrobe_tick (low : Bool) : IgnoresStrobe (tick low) :=
  IgnoresStrobe.comp (g := endOfTick low) ignoresStrobe_of_commutes
    (ignoresStrobe_handlerTick.comp (f := tickBegun) fun _ _ _ => ⟨false, rfl⟩)

theorem ignoresStrobe_tickList (lows : List Bool) : IgnoresStrobe (tickList lows) := by
  induction lows with
  | nil => exact ignoresStrobe_of_commutes
  | cons low lows ih => exact ih.comp (ignoresStrobe_tick low)

/-- Settles O58: the two runs differ in the strobe, so putting the first run's strobe back makes them equal. -/
theorem debugStrobeHasNoProtocolEffect : Obligations.DebugStrobeHasNoProtocolEffect := by
  intro s option output lows s' t t'
  obtain ⟨output', h⟩ := ignoresStrobe_tickList lows option output s
  have ht : t' = t.restrobed option output' := h
  rw [ht]
  rfl

/-! ### The tick of the first action (R112, R113) -/

/-- The handler's first action comes in this tick: the entry tick with LAT = 1, else the tick that ends the latency. -/
def FirstActionTick (s : State) : Prop :=
  (s.phase = .wait ∧ s.device.irqPending = true ∧ s.device.irqEnable = true ∧ s.cfg.lat ≤ 1)
    ∨ (s.phase = .lat ∧ s.cfg.lat ≤ s.latCount + 2)

/-- The fast path is taken: armed, and not dropped by the filter (R121). -/
def TakesFastPath (s : State) : Prop :=
  s.session.read0Armed = true ∧ ¬(s.cfg.skip = true ∧ s.device.lineNow = true)

/-- The state in which the first action runs: what it reads is as at the beginning of the tick. -/
structure ActsOn (s u : State) : Prop where
  cfg : u.cfg = s.cfg
  session : u.session = s.session
  lineNow : u.device.lineNow = s.device.lineNow
  debugStrobe : u.device.debugStrobe = false

theorem ActsOn.takesFastPath_iff {s u : State} (h : ActsOn s u) : TakesFastPath u ↔ TakesFastPath s := by
  rw [TakesFastPath, TakesFastPath, h.cfg, h.session, h.lineNow]

theorem handlerTick_of_interrupt {s : State} (hp : s.phase = .wait) (hq : s.device.irqPending = true)
    (he : s.device.irqEnable = true) : handlerTick s = enterHandler s := by
  simp [handlerTick, interruptTaken, hp, hq, he]

theorem handlerTick_of_latency {s : State} (hp : s.phase = .lat) : handlerTick s = latencyPoll s := by
  simp [handlerTick, hp]

/-- In its tick the first action runs. -/
theorem handlerTick_of_firstActionTick {s : State} (h : FirstActionTick s) :
    ∃ u, handlerTick (tickBegun s) = firstAction u ∧ ActsOn s u := by
  rcases h with ⟨hp, hq, he, hlat⟩ | ⟨hp, hlat⟩
  · refine ⟨takeInterrupt (tickBegun s), ?_, rfl, rfl, rfl, rfl⟩
    rw [handlerTick_of_interrupt (s := tickBegun s) hp hq he]
    exact if_pos hlat
  · refine ⟨latencyCounted (tickBegun s), ?_, rfl, rfl, rfl, rfl⟩
    rw [handlerTick_of_latency (s := tickBegun s) hp]
    exact if_pos hlat

/-- In any other tick the strobe output stays clear: no poll writes it (R132). -/
theorem handlerTick_debugStrobe_of_not {s : State} (h : ¬FirstActionTick s) :
    (handlerTick (tickBegun s)).device.debugStrobe = false := by
  cases hp : s.phase with
  | wait =>
    by_cases hq : s.device.irqPending = true ∧ s.device.irqEnable = true
    · have hlat : ¬s.cfg.lat ≤ 1 := fun hlat => h (.inl ⟨hp, hq.1, hq.2, hlat⟩)
      have hentry : enterHandler (tickBegun s) = takeInterrupt (tickBegun s) := if_neg hlat
      rw [handlerTick_of_interrupt (s := tickBegun s) hp hq.1 hq.2, hentry]
      rfl
    · rw [not_and_or, Bool.not_eq_true, Bool.not_eq_true] at hq
      rw [handlerTick_quiet (s := tickBegun s) hp hq]
      rfl
  | lat =>
    have hlat : ¬s.cfg.lat ≤ s.latCount + 2 := fun hlat => h (.inr ⟨hp, hlat⟩)
    have hcount : latencyPoll (tickBegun s) = latencyCounted (tickBegun s) := if_neg hlat
    rw [handlerTick_of_latency (s := tickBegun s) hp, hcount]
    rfl
  | wPoll => simp [handlerTick, tickBegun, hp]
  | r0Hold => simp [handlerTick, tickBegun, hp]
  | rstPoll => simp [handlerTick, tickBegun, hp, finalisationPoll_debugStrobe (released := exitHandler) fun _ => rfl]
  | relWait => simp [handlerTick, tickBegun, hp]
  | idleHold => simp [handlerTick, tickBegun, hp]
  | presence => simp [handlerTick, tickBegun, hp]

/-! ### What the first action asserts -/

theorem firstAction_of_takesFastPath {s : State} (h : TakesFastPath s) :
    firstAction s = holdPoll (assertFast (actionBegun s)) := by
  obtain ⟨harmed, hfilter⟩ := h
  have hpath : firstAction s = fastPath (actionBegun s) := if_pos harmed
  have hskip : ¬((s.cfg.skip && s.device.lineNow) = true) := by rwa [Bool.and_eq_true]
  rw [hpath, fastPath_eq]
  exact if_neg hskip

/-- The strobe output after the first action: DEBUG_STROBE, on the fast path alone. -/
theorem firstAction_debugStrobe {s : State} (hs : s.device.debugStrobe = false) :
    (firstAction s).device.debugStrobe = true ↔ s.cfg.debugStrobe = true ∧ TakesFastPath s := by
  by_cases hf : TakesFastPath s
  · have hbegun : (actionBegun s).device.debugStrobe = false := hs
    rw [firstAction_of_takesFastPath hf, holdPoll_debugStrobe, assertFast_eq]
    simp only [hbegun, Bool.or_false, hf, and_true]
    rfl
  · have hclear : (firstAction s).device.debugStrobe = false := by
      rcases firstAction_cases s with ⟨ha, e⟩ | ⟨-, -, e⟩ | ⟨-, -, e⟩
      · have hskip : (s.cfg.skip && s.device.lineNow) = true := by
          rw [Bool.and_eq_true]
          exact not_not.mp fun hn => hf ⟨ha, hn⟩
        have hglitch : fastPath (actionBegun s) = exitGlitch (actionBegun s) := if_pos hskip
        exact (congrArg (·.device.debugStrobe) (e.trans hglitch)).trans hs
      · rw [e]
        exact (afterClassification_debugStrobe _).trans hs
      · rw [e]
        exact (writePoll_debugStrobe _).trans hs
    simp [hclear, hf]

/-- The fast path's assertion begins the hold, with the Timer running from zero (R125). -/
theorem firstAction_holds {s : State} (hf : TakesFastPath s) (hx : 0 < s.cfg.tR0Ext) :
    WaitsAt .r0Hold true 0 (firstAction s) := by
  have hhold : holdPoll (assertFast (actionBegun s)) = waitIn .r0Hold (assertFast (actionBegun s)) := by
    rw [assertFast_eq]
    exact if_pos hx
  rw [firstAction_of_takesFastPath hf, hhold, assertFast_eq]
  exact ⟨rfl, rfl, rfl, rfl⟩

/-- The tick of the first action, on the fast path: the line is driven in the next tick. -/
theorem waitsAt_hold_of_firstActionTick {s : State} (hc : configLegal s.cfg = true) (h : FirstActionTick s)
    (hf : TakesFastPath s) (low : Bool) : WaitsAt .r0Hold true 1 (tick low s) := by
  obtain ⟨-, -, -, -, hb, hx, hxr, -⟩ := (configLegal_iff s.cfg).1 hc
  obtain ⟨u, hu, hacts⟩ := handlerTick_of_firstActionTick h
  have hhold := firstAction_holds (hacts.takesFastPath_iff.2 hf) (by rw [hacts.cfg]; exact hx)
  exact WaitsAt.after_tick (k := 0) (hu ▸ hhold) (by omega) low

/-- The strobe output after a tick. -/
theorem tick_debugStrobe (low : Bool) (s : State) :
    (tick low s).device.debugStrobe = true ↔ s.cfg.debugStrobe = true ∧ TakesFastPath s ∧ FirstActionTick s := by
  have htick : (tick low s).device.debugStrobe = (handlerTick (tickBegun s)).device.debugStrobe := rfl
  rw [htick]
  by_cases h : FirstActionTick s
  · obtain ⟨u, hu, hacts⟩ := handlerTick_of_firstActionTick h
    rw [hu, firstAction_debugStrobe hacts.debugStrobe, hacts.takesFastPath_iff, hacts.cfg]
    simp only [h, and_true]
  · rw [handlerTick_debugStrobe_of_not h]
    simp only [h, and_false, Bool.false_eq_true]

/-- Settles O59: the strobe marks the first action of the fast path, which leaves the block holding the line. -/
theorem debugStrobeMarksTheFastPathAssertion : Obligations.DebugStrobeMarksTheFastPathAssertion := by
  intro s low
  refine ⟨(tick_debugStrobe low s).trans (and_congr_right' and_assoc), fun hc hstrobe => ?_⟩
  obtain ⟨-, hf, h⟩ := (tick_debugStrobe low s).1 hstrobe
  exact (waitsAt_hold_of_firstActionTick hc h hf low).driveLow

end Sys2Proof.Machine
end

/-! PROOF. The Read-0 hold (40_pulse_classifier R112, R125; 70_reset_and_hazards R270, R290): from the falling edge to
the end of the hold, whatever the master does. -/
section

namespace Sys2Proof.Machine

/-! ### From the edge to the first action -/

/-- An armed block, `k` ticks after the falling edge, that has not acted on it (R112). -/
structure AwaitsAction (k : Nat) (s : State) : Prop where
  armed : s.session.read0Armed = true
  driveLow : s.device.driveLow = false
  position : (k = 1 ∧ s.phase = .wait ∧ s.device.irqPending = true ∧ s.device.irqEnable = true)
    ∨ (s.phase = .lat ∧ s.latCount + 2 = k)

section Latency

variable {s : State} {k : Nat}

/-- The tick of the edge sets the pending flag (10_state R36). -/
theorem awaitsAction_of_edge (hp : s.phase = .wait) (ha : s.session.read0Armed = true)
    (hq : s.device.irqPending = false) (he : s.device.irqEnable = true) (hd : s.device.driveLow = false)
    (hprev : s.device.prevLine = true) (hl : s.device.lineNow = false) (low : Bool) :
    AwaitsAction 1 (tick low s) := by
  have htick : tick low s = endOfTick low (tickBegun s) :=
    congrArg (endOfTick low) (handlerTick_quiet (s := tickBegun s) hp (.inl hq))
  rw [htick]
  refine ⟨ha, hd, .inl ⟨rfl, hp, ?_, he⟩⟩
  show ((s.device.irqPending && !s.device.clearNow) || (s.device.prevLine && !s.device.lineNow)) = true
  simp [hprev, hl]

/-- Before the last tick of the latency nothing is asserted; the count goes on. -/
theorem AwaitsAction.succ (h : AwaitsAction k s) (hk : k < s.cfg.lat) (low : Bool) :
    AwaitsAction (k + 1) (tick low s) := by
  rcases h.position with ⟨rfl, hp, hq, he⟩ | ⟨hp, hcount⟩
  · have hentry : enterHandler (tickBegun s) = takeInterrupt (tickBegun s) := if_neg (Nat.not_le_of_lt hk)
    have htick : tick low s = endOfTick low (takeInterrupt (tickBegun s)) :=
      congrArg (endOfTick low) ((handlerTick_of_interrupt (s := tickBegun s) hp hq he).trans hentry)
    rw [htick]
    exact ⟨h.armed, h.driveLow, .inr ⟨rfl, rfl⟩⟩
  · have hwait : latencyPoll (tickBegun s) = latencyCounted (tickBegun s) :=
      if_neg (show ¬s.cfg.lat ≤ s.latCount + 2 by omega)
    have htick : tick low s = endOfTick low (latencyCounted (tickBegun s)) :=
      congrArg (endOfTick low) ((handlerTick_of_latency (s := tickBegun s) hp).trans hwait)
    rw [htick]
    exact ⟨h.armed, h.driveLow, .inr ⟨hp, (Nat.add_right_comm _ _ _).trans (congrArg (· + 1) hcount)⟩⟩

/-- LAT ticks after the edge the first action runs. -/
theorem AwaitsAction.firstActionTick (h : AwaitsAction s.cfg.lat s) : FirstActionTick s := by
  rcases h.position with ⟨hlat, hp, hq, he⟩ | ⟨hp, hcount⟩
  · exact .inl ⟨hp, hq, he, hlat.le⟩
  · exact .inr ⟨hp, hcount.ge⟩

/-! ### The hold -/

theorem handlerTick_r0Hold {drive : Bool} (h : WaitsAt .r0Hold drive k s) :
    handlerTick (tickBegun s) = holdPoll (tickBegun s) := by
  simp [handlerTick, tickBegun, h.phase]

/-- The hold goes on below T_R0EXT (R125). -/
theorem waitsAt_hold_succ (hc : configLegal s.cfg = true) (h : WaitsAt .r0Hold true k s) (hk : k < s.cfg.tR0Ext)
    (low : Bool) : WaitsAt .r0Hold true (k + 1) (tick low s) := by
  obtain ⟨-, -, -, -, hb, -, hx, -⟩ := (configLegal_iff s.cfg).1 hc
  obtain rfl := h.tau
  have hwait : holdPoll (tickBegun s) = waitIn .r0Hold (tickBegun s) := if_pos hk
  refine WaitsAt.after_tick ?_ (show s.device.tau + 1 < _ by omega) low
  rw [handlerTick_r0Hold h, hwait]
  exact ⟨rfl, h.driveLow, h.timerRunning, rfl⟩

/-- On a low line Reset finalisation asserts nothing: with RESET it waits for the release, without it for the line. -/
theorem finalisationPoll_driveLow {released : State → State} (hl : s.device.lineNow = false) :
    (finalisationPoll released s).device.driveLow = s.device.driveLow := by
  rcases finalisationPoll_cases released s with ⟨-, e⟩ | ⟨-, -, hhigh, -⟩ | ⟨-, -, -, e⟩
  · have hwait : resetSequence (onSession (fun x => { x with possibleReset := false }) s) =
        waitIn .relWait (engineReset (emit .reset (onSession (fun x => { x with possibleReset := false }) s))) :=
      if_neg (by simp [line, hl])
    rw [e, hwait]
    rfl
  · exact absurd (hl.symm.trans hhigh) (by decide)
  · rw [e]
    rfl

/-- The end of the hold releases the line (R125). -/
theorem released_of_hold (h : WaitsAt .r0Hold true s.cfg.tR0Ext s) (hl : s.device.lineNow = false) (low : Bool) :
    (tick low s).device.driveLow = false := by
  have hend : holdPoll (tickBegun s) =
      afterClassification (readDelivered .read0 (onDevice Device.setInputMode (tickBegun s))) :=
    if_neg (Nat.not_lt_of_le h.tau.ge)
  have hdrive : (tick low s).device.driveLow = (handlerTick (tickBegun s)).device.driveLow := rfl
  rw [hdrive, handlerTick_r0Hold h, hend, afterClassification_of_set (readDelivered_possibleReset _ _)]
  exact finalisationPoll_driveLow hl

end Latency

/-! ### The waveform from the edge -/

/-- The tick of a falling edge on an armed block at rest (R35, R36). -/
structure ArmedAtEdge (s : State) : Prop where
  legal : configLegal s.cfg = true
  phase : s.phase = .wait
  armed : s.session.read0Armed = true
  irqPending : s.device.irqPending = false
  irqEnable : s.device.irqEnable = true
  driveLow : s.device.driveLow = false
  prevLine : s.device.prevLine = true
  lineNow : s.device.lineNow = false

section Waveform

variable {s : State} {lows : List Bool}

theorem ArmedAtEdge.legal_tickList (hs : ArmedAtEdge s) (lows : List Bool) :
    configLegal (tickList lows s).cfg = true := by
  rw [tickList_cfg]
  exact hs.legal

/-- The latency: ticks `t_e + 1` to `t_e + LAT`. -/
theorem ArmedAtEdge.awaits (hs : ArmedAtEdge s) {k : Nat} (h1 : 1 ≤ k) (hk : k ≤ s.cfg.lat) (h : lows.length = k) :
    AwaitsAction k (tickList lows s) := by
  induction k, h1 using Nat.le_induction generalizing lows with
  | base =>
    obtain ⟨init, low, rfl, hinit⟩ := exists_concat_of_length h
    obtain rfl := List.length_eq_zero_iff.mp hinit
    exact awaitsAction_of_edge hs.phase hs.armed hs.irqPending hs.irqEnable hs.driveLow hs.prevLine hs.lineNow low
  | succ k hk1 ih =>
    obtain ⟨init, low, rfl, hinit⟩ := exists_concat_of_length h
    rw [tickList_concat]
    exact (ih (by omega) hinit).succ (by rw [tickList_cfg]; omega) low

/-- A line that the master holds low in the tick is low, whoever else drives it (10_state R21). -/
theorem tick_true_lineNow (s : State) : (tick true s).device.lineNow = false := rfl

/-- The slave's own drive makes the line low. -/
theorem tick_lineNow_of_driveLow {low : Bool} {s : State} (h : (tick low s).device.driveLow = true) :
    (tick low s).device.lineNow = false := by
  rw [tick_lineNow, h, wiredAnd, Bool.or_true, Bool.not_true]

/-- At the first action the fast path is taken: the filter is off, or the master is still low. -/
theorem ArmedAtEdge.takesFastPath (hs : ArmedAtEdge s) (h : lows.length = s.cfg.lat)
    (hm : s.cfg.skip = true → ∀ m ∈ lows, m = true) : TakesFastPath (tickList lows s) := by
  obtain ⟨hlat, -⟩ := (configLegal_iff s.cfg).1 hs.legal
  refine ⟨(hs.awaits hlat le_rfl h).armed, ?_⟩
  rintro ⟨hskip, hline⟩
  rw [tickList_cfg] at hskip
  obtain ⟨init, low, rfl, -⟩ := exists_concat_of_length (lows := lows) (n := s.cfg.lat - 1) (by omega)
  obtain rfl : low = true := hm hskip low (by simp)
  rw [tickList_concat, tick_true_lineNow] at hline
  cases hline

/-- The hold: ticks `t_e + LAT + 1` to `t_e + LAT + T_R0EXT`. -/
theorem ArmedAtEdge.holds (hs : ArmedAtEdge s) (hm : s.cfg.skip = true → ∀ m ∈ lows.take s.cfg.lat, m = true)
    {k : Nat} (h1 : 1 ≤ k) (hk : k ≤ s.cfg.tR0Ext) (h : lows.length = s.cfg.lat + k) :
    WaitsAt .r0Hold true k (tickList lows s) := by
  induction k, h1 using Nat.le_induction generalizing lows with
  | base =>
    obtain ⟨hlat, -⟩ := (configLegal_iff s.cfg).1 hs.legal
    obtain ⟨init, low, rfl, hinit⟩ := exists_concat_of_length h
    rw [List.take_left' hinit] at hm
    rw [tickList_concat]
    have haction : AwaitsAction (tickList init s).cfg.lat (tickList init s) := by
      rw [tickList_cfg]
      exact hs.awaits hlat le_rfl hinit
    exact waitsAt_hold_of_firstActionTick (hs.legal_tickList init) haction.firstActionTick
      (hs.takesFastPath hinit hm) low
  | succ k hk1 ih =>
    obtain ⟨init, low, rfl, hinit⟩ := exists_concat_of_length (n := s.cfg.lat + k) h
    rw [List.take_append_of_le_length (by omega)] at hm
    rw [tickList_concat]
    exact waitsAt_hold_succ (hs.legal_tickList init) (ih hm (by omega) hinit) (by rw [tickList_cfg]; omega) low

/-- The release follows the hold, in whose last tick the slave itself keeps the line low. -/
theorem ArmedAtEdge.releases (hs : ArmedAtEdge s) (hm : s.cfg.skip = true → ∀ m ∈ lows.take s.cfg.lat, m = true)
    (h : lows.length = s.cfg.lat + s.cfg.tR0Ext + 1) : (tickList lows s).device.driveLow = false := by
  obtain ⟨-, -, -, -, -, hx, -⟩ := (configLegal_iff s.cfg).1 hs.legal
  obtain ⟨init, low, rfl, hinit⟩ := exists_concat_of_length h
  rw [List.take_append_of_le_length (by omega)] at hm
  have hhold := hs.holds hm hx le_rfl hinit
  have hline : (tickList init s).device.lineNow = false := by
    have hdrive := hhold.driveLow
    obtain ⟨first, last, rfl, -⟩ :=
      exists_concat_of_length (lows := init) (n := s.cfg.lat + s.cfg.tR0Ext - 1) (by omega)
    rw [tickList_concat] at hdrive ⊢
    exact tick_lineNow_of_driveLow hdrive
  rw [tickList_concat]
  exact released_of_hold (by rw [tickList_cfg]; exact hhold) hline low

end Waveform

/-- Settles O55: the ticks from the edge are those of the latency, the hold and the release. -/
theorem readZeroHoldIsTimedFromTheEdge : Obligations.ReadZeroHoldIsTimedFromTheEdge := by
  intro s lows hc hp ha hq he hd _ hprev hl hm hn
  have hs : ArmedAtEdge s := ⟨hc, hp, ha, hq, he, hd, hprev, hl⟩
  rcases Nat.eq_zero_or_pos lows.length with h0 | h1
  · obtain rfl := List.length_eq_zero_iff.mp h0
    simpa [tickList] using hd
  by_cases hlat : lows.length ≤ s.cfg.lat
  · rw [(hs.awaits h1 hlat rfl).driveLow, decide_eq_false (by omega), Bool.false_and]
  by_cases hhold : lows.length ≤ s.cfg.lat + s.cfg.tR0Ext
  · rw [(hs.holds hm (k := lows.length - s.cfg.lat) (by omega) (by omega) (by omega)).driveLow,
      decide_eq_true (by omega), decide_eq_true hhold, Bool.true_and]
  · rw [hs.releases hm (by omega), decide_eq_false hhold, Bool.and_false]

end Sys2Proof.Machine
end

/-! PROOF. The protocol engine (41_protocol_engine R161 to R176): each row called by itself as its procedure, and the
discovery round trip (R180). -/
section

namespace Sys2Proof.Machine

open Sys2Proof.Safety

/-! ### The rows as their procedures -/

section Rows

variable (s : State) (bit : Bool)

theorem exec_onReset : exec .onReset s = .next { s with session := s.session.onReset } := rfl

theorem exec_onWriteBit :
    exec (.onWriteBit bit) s =
      .next { s with session := s.session.onWriteBit s.mem s.cfg.cmdDiscover bit } := rfl

theorem exec_onWriteBitResetReceived :
    exec (.onWriteBitResetReceived bit) s =
      .next { s with session := s.session.accumulate s.mem s.cfg.cmdDiscover bit } := rfl

theorem exec_onWriteBitDiscover :
    exec (.onWriteBitDiscover bit) s = .next { s with session := s.session.discoverWrite s.mem bit } := rfl

theorem exec_onReadBitRequested :
    exec .onReadBitRequested s = .next (returningBit (Session.onReadBitRequested s.mem) s) := rfl

theorem exec_onReadBitDiscover :
    exec .onReadBitDiscover s = .next (returningBit (Session.discoverBit s.mem) s) := rfl

theorem exec_readIdentity : exec .readIdentity s = .next { s with session := s.session.startReport s.mem } := rfl

theorem exec_discover : exec .discover s = .next { s with session := s.session.startDiscover s.mem } := rfl

theorem exec_deferredSwitchToWrite :
    exec .deferredSwitchToWrite s = .next { s with session := s.session.deferSwitchToWrite } := rfl

theorem exec_rearm : exec .rearm s = .next { s with session := s.session.rearm s.mem } := rfl

theorem exec_advanceCursor : exec .advanceCursor s = .next { s with session := s.session.advanceCursor } := rfl

end Rows

/-! ### The procedures by CommandState -/

section Procedures

variable {m : Memory} {disc : Byte} {bit : Bool} {x : Session}

/-- `onReset()` writes constants, so a second one changes nothing (R161). -/
theorem onReset_onReset (x : Session) : x.onReset.onReset = x.onReset := rfl

theorem onWriteBit_discover (h : x.commandState = .discover) :
    x.onWriteBit m disc bit = x.discoverWrite m bit := by
  simp only [Session.onWriteBit, h]

/-- R168. -/
theorem onWriteBit_passive (h : x.commandState = .idle ∨ x.commandState = .reportIdentity) :
    x.onWriteBit m disc bit = x := by
  rcases h with h | h <;> simp only [Session.onWriteBit, h]

theorem discoverWrite_match (h : bit = idbit m x) :
    x.discoverWrite m bit = x.advanceCursor.switchToReadMode m := if_pos h

theorem discoverWrite_mismatch (h : bit ≠ idbit m x) :
    x.discoverWrite m bit = { x with commandState := .idle } := if_neg h

theorem onReadBitRequested_reportIdentity (h : x.commandState = .reportIdentity) :
    x.onReadBitRequested m = x.reportBit m := by
  simp only [Session.onReadBitRequested, h]

theorem onReadBitRequested_discover (h : x.commandState = .discover) :
    x.onReadBitRequested m = x.discoverBit m := by
  simp only [Session.onReadBitRequested, h]

/-- R172. -/
theorem onReadBitRequested_passive (h : x.commandState = .idle ∨ x.commandState = .resetReceived) :
    x.onReadBitRequested m = (true, x) := by
  rcases h with h | h <;> simp only [Session.onReadBitRequested, h, Session.passiveBit]

theorem discoverBit_true (h : x.invertNextReadBit = false) :
    x.discoverBit m = (idbit m x, { x with invertNextReadBit := true }) := if_neg (by rw [h]; decide)

theorem discoverBit_complement (h : x.invertNextReadBit = true) :
    x.discoverBit m = (!(idbit m x), { x with invertNextReadBit := false, deferredSwitchToWrite := true }) := if_pos h

end Procedures

/-! ### The discovery round trip (R180) -/

/-- The operation word of the triplet in which the master echoes identity bit `n`. -/
def echoWord (s : State) (n : Nat) : Input := .word (encode s.cfg.cmdDiscover (.triplet (identityBit s.mem n)))

/-- The session `x` after a discovery round without a mismatch: Idle, the cursor at its start, read mode kept. -/
def Session.discovered (x : Session) : Session :=
  { x with
    commandState := .idle, invertNextReadBit := false, byteIndex := 0, bitMask := 0x01#8, pendingBitValue := true,
    possibleReset := false, read0Armed := false }

/-- The session `x` before the triplet of identity bit `n`, the triplets before it all matched. -/
def Session.discoveringAt (x : Session) (m : Memory) (n : Nat) (h : n < 64) : Session :=
  { x.cursorAt n h with
    pendingBitValue := identityBit m n, possibleReset := false, read0Armed := !(identityBit m n) }

theorem discovered_discoveringAt (x : Session) (m : Memory) {n : Nat} (h : n < 64) :
    (x.discoveringAt m n h).discovered = x.discovered := rfl

/-- The next triplet starts as the last one did, with the cursor one position on. -/
theorem InTriplet.discoveringAt {m : Memory} {x : Session} {n k : Nat} {hn : n < 64} (hx : InTriplet m x n hn)
    (h : k < 64) : InTriplet m (x.discoveringAt m k h) k h :=
  ⟨hx.commandState, hx.expectingRead, hx.deferred, hx.invert, hx.timerOverflow, rfl, rfl, rfl⟩

theorem transferFrame_of_withInput {s t : State} {q : List Input} (h : TransferFrame { s with input := q } t) :
    TransferFrame s t := { h with }

theorem echoWord_of_frame {s t : State} (h : TransferFrame s t) : echoWord t = echoWord s := by
  funext n
  rw [echoWord, echoWord, h.mem, h.cfg]

/-- One step on an echoed triplet: to the next triplet, or after bit 63 to the end of the round. -/
theorem step_echoWord {s : State} {n : Nat} {hn : n < 64} {rest : List Input} (hc : configLegal s.cfg = true)
    (hx : InTriplet s.mem s.session n hn) (hi : s.input = echoWord s n :: rest) :
    ∃ t, step s = .next t ∧ TransferFrame s t ∧ t.input = rest
      ∧ ((h : n + 1 < 64) → t.session = s.session.discoveringAt s.mem (n + 1) h)
      ∧ (n = 63 → t.session = s.session.discovered) := by
  have hdecode : decode s.cfg.cmdDiscover (encode s.cfg.cmdDiscover (.triplet (identityBit s.mem n))) =
      .ok (.triplet (identityBit s.mem n)) := decodeOfEncodeIsTheOperation _ _ rfl
  have hslots := runSlots_triplet (s := { s with input := rest }) (identityBit s.mem n) hx
  refine ⟨_, (step_word hc hi).trans (runBytes_of_decode (s := { s with input := rest }) hdecode),
    transferFrame_of_withInput hslots.frame, hslots.input, fun h => ?_, fun h => ?_⟩
  · exact hslots.session.trans (hx.match_next rfl h)
  · subst h
    exact hslots.session.trans (hx.match_last rfl)

/-- The echoed triplets from identity bit `n` on. -/
theorem run_echoWords (k : Nat) {n : Nat} (hk : n + k = 63) {s : State} (hc : configLegal s.cfg = true)
    (hx : InTriplet s.mem s.session n (by omega)) (hi : s.input = (List.range' n (k + 1)).map (echoWord s)) :
    ∃ t, Sys2Proof.core.run (k + 1) s = .next t ∧ TransferFrame s t ∧ t.input = []
      ∧ t.session = s.session.discovered := by
  obtain ⟨t, hstep, hframe, hrest, hnext, hlast⟩ := step_echoWord hc hx hi
  have hrun := run_succ_of_step (M := Sys2Proof.core) (k := k) hstep
  cases k with
  | zero => exact ⟨t, hrun, hframe, hrest, hlast hk⟩
  | succ k =>
    have hsession := hnext (by omega)
    have ht : InTriplet t.mem t.session (n + 1) (by omega) := by
      rw [hframe.mem, hsession]
      exact hx.discoveringAt _
    obtain ⟨u, hu, hrestFrame, hempty, hend⟩ :=
      run_echoWords k (by omega) (by rw [hframe.cfg]; exact hc) ht (by rw [echoWord_of_frame hframe]; exact hrest)
    exact ⟨u, hrun.trans hu, transferFrame_trans hframe hrestFrame, hempty,
      by rw [hend, hsession, discovered_discoveringAt]⟩

/-! ### The obligations -/

/-- Settles O23. -/
theorem onResetClearsTheCommandState : Obligations.OnResetClearsTheCommandState := by
  intro s
  refine ⟨_, exec_onReset s, ?_, rfl⟩
  rw [exec_onReset, onReset_onReset]

/-- Settles O24, by CommandState. -/
theorem onWriteBitDependsOnCommandState : Obligations.OnWriteBitDependsOnCommandState := by
  intro s bit
  rw [exec_onWriteBit]
  refine ⟨fun h => ?_, fun h => ?_, fun h => ?_, rfl⟩
  · rw [onWriteBit_resetReceived _ _ _ h]
    exact ⟨_, rfl, exec_onWriteBitResetReceived s bit⟩
  · rw [onWriteBit_discover h]
    exact ⟨_, rfl, exec_onWriteBitDiscover s bit⟩
  · rw [onWriteBit_passive h]

/-- Settles O25: below the top the mask doubles, at the top the byte is dispatched, with its three outcomes. -/
theorem commandBitIsAccumulated : Obligations.CommandBitIsAccumulated := by
  intro s bit acc
  refine ⟨fun hm => ?_, fun hm => ?_⟩
  · rw [exec_onWriteBitResetReceived, accumulate_before_top _ _ _ hm]
  · intro u
    have hexec : exec (.onWriteBitResetReceived bit) s =
        .next { u with session := u.session.dispatch s.mem s.cfg.cmdDiscover } := by
      rw [exec_onWriteBitResetReceived, accumulate_top _ _ _ hm]
    refine ⟨fun hr => ⟨_, exec_readIdentity u, ?_⟩, fun hr hd => ⟨_, exec_discover u, ?_⟩, fun hr hd => ?_⟩
    · rw [hexec, dispatch_readIdentity hr]
    · rw [hexec, dispatch_discover hr hd]
    · rw [hexec, dispatch_other hr hd]

/-- Settles O26. -/
theorem readIdentityStartsTheReport : Obligations.ReadIdentityStartsTheReport := by
  intro s
  rw [exec_readIdentity, startReport_eq]

/-- Settles O27. -/
theorem discoverStartsTheRound : Obligations.DiscoverStartsTheRound := by
  intro s
  rw [exec_discover, startDiscover_eq]

/-- Settles O28: the row is the unknown command's one write. -/
theorem unknownCommandReturnsToIdle : Obligations.UnknownCommandReturnsToIdle := fun _ _ => rfl

/-- Settles O29, by the comparison with the true bit. -/
theorem discoverWriteComparesWithTheTrueBit : Obligations.DiscoverWriteComparesWithTheTrueBit := by
  intro s bit v
  rw [exec_onWriteBitDiscover]
  refine ⟨fun hne => ?_, fun heq => ⟨_, _, exec_advanceCursor s, rfl, ?_⟩⟩
  · rw [discoverWrite_mismatch hne]
  · rw [discoverWrite_match heq]
    rfl

/-- Settles O30, by CommandState. -/
theorem onReadBitRequestedDependsOnCommandState : Obligations.OnReadBitRequestedDependsOnCommandState := by
  intro s
  rw [exec_onReadBitRequested, returningBit]
  refine ⟨fun h => ?_, fun h => ?_, fun h => ?_, rfl⟩
  · rw [onReadBitRequested_reportIdentity h]
    exact ⟨_, rfl, rfl⟩
  · rw [onReadBitRequested_discover h]
    exact ⟨_, rfl, exec_onReadBitDiscover s⟩
  · rw [onReadBitRequested_passive h]

/-- Settles O31: the bit is `idbit()`, the session that of the advance. -/
theorem reportReturnsTheIdentityBit : Obligations.ReportReturnsTheIdentityBit := fun s =>
  ⟨_, exec_advanceCursor s, rfl⟩

/-- Settles O32, by INV. -/
theorem discoverAlternatesTrueAndComplement : Obligations.DiscoverAlternatesTrueAndComplement := by
  intro s v
  rw [exec_onReadBitDiscover, returningBit]
  refine ⟨fun h => ?_, fun h => ?_⟩
  · rw [discoverBit_true h]
    rfl
  · rw [discoverBit_complement h]
    rfl

/-- Settles O33: the preload is `onReadBitRequested()` after the two writes. -/
theorem switchToReadModePreloadsTheBit : Obligations.SwitchToReadModePreloadsTheBit := fun _ =>
  ⟨_, exec_onReadBitRequested _, rfl⟩

/-- Settles O34: the request sets DSW, and the rearm takes its branch. -/
theorem deferredSwitchIsAppliedByRearm : Obligations.DeferredSwitchIsAppliedByRearm := by
  intro s
  refine ⟨_, exec_deferredSwitchToWrite s, rfl, ?_⟩
  rw [exec_rearm, rearm_of_deferred _ rfl]
  rfl

/-- Settles O35, by the three cases of R176. -/
theorem advanceCursorMovesOneBit : Obligations.AdvanceCursorMovesOneBit := by
  intro s
  rw [exec_advanceCursor]
  rcases advanceCursor_cases s.session with ⟨hm, e⟩ | ⟨hm, hi, e⟩ | ⟨hm, hi, e⟩
  · exact ⟨fun _ => by rw [e], fun h => absurd h hm, fun h => absurd h hm⟩
  · exact ⟨absurd hm, fun _ _ => by rw [e], fun _ h => absurd h hi⟩
  · exact ⟨absurd hm, fun _ h => absurd hi h, fun _ _ => by rw [e]⟩

/-- Settles O50: the 64 steps of the echoed triplets, from identity bit 0. -/
theorem discoverRoundTripReturnsToIdle : Obligations.DiscoverRoundTripReturnsToIdle := by
  intro s hc hcs he hd hv ho hi hm hp ha echo
  have hx : InTriplet s.mem s.session 0 (by decide) := ⟨hcs, he, hd, hv, ho, cursorAt_zero hi hm, hp, ha⟩
  obtain ⟨t, hrun, hframe, hempty, hsession⟩ := run_echoWords 63 rfl
    (s := { s with input := (List.range 64).map echo }) hc hx (by rw [List.range_eq_range']; rfl)
  exact ⟨t, hrun, transferFrame_of_withInput hframe, hempty, hsession⟩

end Sys2Proof.Machine
end

/-! PROOF. The hardware interface (42_hw_interface R201 to R211): each row as its primitive, and what the end of the
tick makes of the registers it writes (10_state R21, R22, R36; 40_pulse_classifier R111). -/
section

namespace Sys2Proof.Machine

/-! ### The rows as their primitives -/

section Rows

variable (s : State)

theorem exec_setInputMode : exec .setInputMode s = .next { s with device := s.device.setInputMode } := rfl

theorem exec_setDrivenLow : exec .setDrivenLow s = .next { s with device := s.device.setDrivenLow } := rfl

theorem exec_readLevel : exec .readLevel s = .next { s with retBit := line s } := rfl

theorem exec_timerStart : exec .timerStart s = .next { s with device := s.device.timerStart } := rfl

theorem exec_timerStop : exec .timerStop s = .next { s with device := s.device.timerStop } := rfl

theorem exec_timerResetToZero : exec .timerResetToZero s = .next { s with device := s.device.timerReset } := rfl

theorem exec_timerReadTicks : exec .timerReadTicks s = .next { s with retTicks := ticks s } := rfl

theorem exec_timerOverflowIndicator : exec .timerOverflowIndicator s = .next (noteOverflow s) := rfl

theorem exec_configureFallingEdge (src : EdgeSource) : exec (.configureFallingEdge src) s = .next s := rfl

theorem exec_clearPendingFlag : exec .clearPendingFlag s = .next { s with device := s.device.clearPending } := rfl

theorem exec_enableGlobalInterrupts :
    exec .enableGlobalInterrupts s = .next { s with device := s.device.enableInterrupts } := rfl

end Rows

/-! ### The registers at the end of a tick -/

section EndOfTick

variable (low : Bool) (s : State)

theorem endOfTick_lineNow : (endOfTick low s).device.lineNow = wiredAnd low s.device.driveLow := rfl

theorem endOfTick_irqPending : (endOfTick low s).device.irqPending = irqNext s.device := rfl

theorem endOfTick_tau : (endOfTick low s).device.tau = tauNext s.cfg s.device := rfl

theorem endOfTick_timerOverflow :
    (endOfTick low s).session.timerOverflow = (s.session.timerOverflow || timerWraps s.cfg s.device) := rfl

end EndOfTick

/-! ### The line -/

/-- With the driver released the master alone makes the level (10_state R21). -/
theorem wiredAnd_released (low : Bool) : wiredAnd low false = !low := by
  rw [wiredAnd, Bool.or_false]

/-- The driver's pull wins whatever the master does (10_state R21). -/
theorem wiredAnd_driven (low : Bool) : wiredAnd low true = false := by
  rw [wiredAnd, Bool.or_true, Bool.not_true]

theorem Device.setDrivenLow_setDrivenLow (d : Device) : d.setDrivenLow.setDrivenLow = d.setDrivenLow := rfl

/-! ### The pending flag -/

/-- A clear leaves only the edge seen in its own tick (60_exceptions R229). -/
theorem irqNext_clearPending (d : Device) : irqNext d.clearPending = edgeNow d := by
  have hclear : d.clearPending.clearNow = true := rfl
  rw [irqNext, hclear, Bool.not_true, Bool.and_false, Bool.false_or]
  rfl

/-! ### The Timer -/

section Timer

variable {c : Config} {d : Device}

theorem tauNext_of_running (h : d.timerRunning = true) : tauNext c d = (d.tau + 1) % 2 ^ c.timerBits := by
  rw [tauNext, if_pos h, timerValue]

/-- A reset writes the count alone, so the tick counts from zero if the Timer runs (R206). -/
theorem tauNext_timerReset (c : Config) (d : Device) :
    tauNext c d.timerReset = if d.timerRunning then 1 % 2 ^ c.timerBits else 0 := by
  split
  · next h => exact tauNext_of_running h
  · next h => exact tauNext_of_stopped (Bool.eq_false_of_not_eq_true h)

/-- A count that the Timer can hold wraps from its last value alone (R208). -/
theorem timerWraps_iff (h : d.tau < 2 ^ c.timerBits) :
    timerWraps c d = true ↔ d.timerRunning = true ∧ d.tau = 2 ^ c.timerBits - 1 := by
  have hlast : 2 ^ c.timerBits ≤ d.tau + 1 ↔ d.tau = 2 ^ c.timerBits - 1 := by omega
  rw [timerWraps, Bool.and_eq_true, decide_eq_true_iff, hlast]

theorem tauNext_of_last (hr : d.timerRunning = true) (h : d.tau = 2 ^ c.timerBits - 1) : tauNext c d = 0 := by
  rw [tauNext_of_running hr, h, Nat.sub_add_cancel Nat.one_le_two_pow, Nat.mod_self]

end Timer

/-! ### The overflow indicator -/

theorem noteOverflow_of_wraps {s : State} (h : timerWraps s.cfg s.device = true) :
    noteOverflow s = { s with session := { s.session with timerOverflow := true } } := by
  rw [noteOverflow, onSession, h, Bool.or_true]

theorem noteOverflow_of_not_wraps {s : State} (h : timerWraps s.cfg s.device = false) : noteOverflow s = s := by
  rw [noteOverflow, onSession, h, Bool.or_false]

/-! ### The obligations -/

/-- Settles O17: the line of the next tick is the wired AND with the driver just written. -/
theorem lineDriverPrimitivesSetTheDriver : Obligations.LineDriverPrimitivesSetTheDriver := by
  intro s low
  refine ⟨⟨_, exec_setInputMode s, rfl, ?_⟩, _, exec_setDrivenLow s, rfl, ?_, ?_⟩
  · rw [endOfTick_lineNow, Device.setInputMode_driveLow, wiredAnd_released]
  · rw [endOfTick_lineNow, Device.setDrivenLow_driveLow, wiredAnd_driven]
  · rw [exec_setDrivenLow, Device.setDrivenLow_setDrivenLow]

/-- Settles O18: the count of the next tick, from the Timer that each primitive leaves. -/
theorem timerPrimitivesControlTheCount : Obligations.TimerPrimitivesControlTheCount := by
  intro s low
  refine ⟨⟨_, exec_timerStart s, rfl, ?_⟩, ⟨_, exec_timerStop s, rfl, ?_⟩, _, exec_timerResetToZero s, rfl, ?_⟩
  · rw [endOfTick_tau, tauNext_of_running (Device.timerStart_timerRunning _), Device.timerStart_tau]
  · rw [endOfTick_tau, tauNext_of_stopped (Device.timerStop_timerRunning _), Device.timerStop_tau]
  · rw [endOfTick_tau, tauNext_timerReset]

/-- Settles O19: the return ports are all that the two reads write. -/
theorem readPrimitivesHaveNoSideEffect : Obligations.ReadPrimitivesHaveNoSideEffect := fun s =>
  ⟨exec_readLevel s, exec_timerReadTicks s⟩

/-- Settles O20: the clear waits for the end of the tick, where an edge wins over it. -/
theorem interruptPrimitivesClearAndEnable : Obligations.InterruptPrimitivesClearAndEnable := by
  intro s low
  refine ⟨⟨_, exec_clearPendingFlag s, rfl, ?_⟩, exec_enableGlobalInterrupts s⟩
  rw [endOfTick_irqPending, irqNext_clearPending, edgeNow]

/-- Settles O21. -/
theorem edgeSourceHasNoEffect : Obligations.EdgeSourceHasNoEffect := exec_configureFallingEdge

/-- Settles O22, by whether the Timer wraps in this tick. -/
theorem timerWrapSetsTheOverflowFlag : Obligations.TimerWrapSetsTheOverflowFlag := by
  intro s low hheld
  refine ⟨fun hlast => ?_, fun hnot => ?_⟩
  · have hwraps : timerWraps s.cfg s.device = true := (timerWraps_iff hheld).2 hlast
    obtain ⟨hrunning, htau⟩ := hlast
    refine ⟨?_, ?_, ?_⟩
    · rw [endOfTick_tau, tauNext_of_last hrunning htau]
    · rw [endOfTick_timerOverflow, hwraps, Bool.or_true]
    · rw [exec_timerOverflowIndicator, noteOverflow_of_wraps hwraps]
  · have hwraps : timerWraps s.cfg s.device = false :=
      Bool.eq_false_of_not_eq_true (mt (timerWraps_iff hheld).1 hnot)
    refine ⟨?_, ?_⟩
    · rw [endOfTick_session low hwraps]
    · rw [exec_timerOverflowIndicator, noteOverflow_of_not_wraps hwraps]

end Sys2Proof.Machine
end

/-! PROOF. Every operation completes (60_exceptions R220, 20_memory R63); the running handler does not read the pending
flag, and interrupt entry clears it (60_exceptions R228 to R231, 40_pulse_classifier R112). -/
section

namespace Sys2Proof.Machine

/-! ### Every operation completes -/

/-- Settles O10: no arm of the dispatch faults or refuses. -/
theorem everyOperationCompletes : Obligations.EveryOperationCompletes := exec_next

/-! ### Two blocks that differ in the pending flag -/

/-- The block with another value of the pending flag. -/
def State.repended (pending : Bool) (s : State) : State :=
  { s with device := { s.device with irqPending := pending } }

/-- `f` neither reads nor writes the pending flag: it commutes with setting the flag to `pending`. -/
def IgnoresPending (pending : Bool) (f : State → State) : Prop := Function.Commute f (State.repended pending)

section Polls

variable {pending : Bool}

/-- What has no pending flag in it commutes with the change of the flag by unfolding. -/
theorem ignoresPending_of_commutes {f : State → State}
    (h : ∀ s, f (s.repended pending) = (f s).repended pending := by intros; rfl) : IgnoresPending pending f := h

theorem IgnoresPending.comp {f g : State → State} (hg : IgnoresPending pending g) (hf : IgnoresPending pending f) :
    IgnoresPending pending (g ∘ f) := Function.Commute.comp_left hg hf

/-- A branch on a condition that does not read the pending flag. -/
theorem IgnoresPending.ite {c : State → Prop} [DecidablePred c] {f g : State → State} (hf : IgnoresPending pending f)
    (hg : IgnoresPending pending g) (hc : ∀ s, c (s.repended pending) ↔ c s := by intros; exact Iff.rfl) :
    IgnoresPending pending fun s => if c s then f s else g s := by
  intro s
  simp only [hc s]
  split
  · exact hf s
  · exact hg s

/-! ### The polls -/

theorem ignoresPending_exitHandler : IgnoresPending pending exitHandler := ignoresPending_of_commutes

theorem ignoresPending_exitGlitch : IgnoresPending pending exitGlitch := ignoresPending_of_commutes

theorem ignoresPending_waitIn (p : Phase) : IgnoresPending pending (waitIn p) := ignoresPending_of_commutes

theorem ignoresPending_onSession (f : Session → Session) : IgnoresPending pending (onSession f) :=
  ignoresPending_of_commutes

theorem ignoresPending_readDelivered (e : BusEvent) : IgnoresPending pending (readDelivered e) :=
  ignoresPending_of_commutes

/-- The Reset sequence asks for a clear at the end of the tick (R232); it does not write the flag. -/
theorem ignoresPending_presencePoll : IgnoresPending pending presencePoll :=
  (ignoresPending_waitIn .presence).ite ignoresPending_of_commutes

theorem ignoresPending_idlePoll : IgnoresPending pending idlePoll :=
  (ignoresPending_waitIn .idleHold).ite
    (ignoresPending_presencePoll.comp (f := onDevice Device.timerReset ∘ onDevice Device.setDrivenLow)
      ignoresPending_of_commutes)

theorem ignoresPending_releasePoll : IgnoresPending pending releasePoll :=
  (ignoresPending_idlePoll.comp (f := onDevice Device.timerReset) ignoresPending_of_commutes).ite
    (ignoresPending_waitIn .relWait)

theorem ignoresPending_resetSequence : IgnoresPending pending resetSequence :=
  ignoresPending_releasePoll.comp (f := engineReset ∘ emit .reset) ignoresPending_of_commutes

theorem ignoresPending_finalisationPoll : IgnoresPending pending (finalisationPoll exitHandler) :=
  (ignoresPending_resetSequence.comp (ignoresPending_onSession _)).ite
    ((ignoresPending_exitHandler.comp (ignoresPending_onSession _)).ite (ignoresPending_waitIn .rstPoll))

theorem ignoresPending_afterClassification : IgnoresPending pending afterClassification :=
  ignoresPending_finalisationPoll.ite ignoresPending_exitHandler

theorem ignoresPending_writePoll : IgnoresPending pending writePoll :=
  (ignoresPending_afterClassification.comp (f := write0Delivered) ignoresPending_of_commutes).ite
    ((ignoresPending_exitGlitch.ite
        (ignoresPending_afterClassification.comp (f := write1Delivered) ignoresPending_of_commutes)).ite
      (ignoresPending_waitIn .wPoll))

theorem ignoresPending_holdPoll : IgnoresPending pending holdPoll :=
  (ignoresPending_waitIn .r0Hold).ite
    ((ignoresPending_afterClassification.comp (ignoresPending_readDelivered .read0)).comp
      (f := onDevice Device.setInputMode) ignoresPending_of_commutes)

/-! ### The first action and the latency -/

/-- Whichever DEBUG_STROBE option, the assertion keeps the pending flag. -/
theorem ignoresPending_assertFast : IgnoresPending pending assertFast := by
  intro s
  rw [assertFast_eq, assertFast_eq]
  rfl

theorem ignoresPending_fastPath : IgnoresPending pending fastPath :=
  ignoresPending_exitGlitch.ite (ignoresPending_holdPoll.comp ignoresPending_assertFast)

/-- The classification that `armed` and ER select (R113). -/
theorem ignoresPending_firstAction : IgnoresPending pending firstAction :=
  (ignoresPending_fastPath.ite (c := fun s => s.session.read0Armed = true)
    ((ignoresPending_afterClassification.comp (ignoresPending_readDelivered .read1)).ite
      (c := fun s => s.session.expectingRead = true) ignoresPending_writePoll)).comp
    (f := actionBegun) ignoresPending_of_commutes

theorem ignoresPending_latencyCounted : IgnoresPending pending latencyCounted := ignoresPending_of_commutes

theorem ignoresPending_latencyPoll : IgnoresPending pending latencyPoll :=
  (ignoresPending_firstAction.comp ignoresPending_latencyCounted).ite ignoresPending_latencyCounted

end Polls

/-- Settles O54, by the handler's position: P_WAIT alone reads the pending flag. -/
theorem runningHandlerIgnoresThePendingFlag : Obligations.RunningHandlerIgnoresThePendingFlag := by
  intro s pending hrunning
  show handlerTick (s.repended pending) = (handlerTick s).repended pending
  unfold handlerTick
  rw [show (s.repended pending).phase = s.phase from rfl]
  cases hp : s.phase with
  | wait => exact absurd hp hrunning
  | lat => exact ignoresPending_latencyPoll s
  | wPoll => exact ignoresPending_writePoll s
  | r0Hold => exact ignoresPending_holdPoll s
  | rstPoll => exact ignoresPending_finalisationPoll s
  | relWait => exact ignoresPending_releasePoll s
  | idleHold => exact ignoresPending_idlePoll s
  | presence => exact ignoresPending_presencePoll s

/-! ### Interrupt entry -/

section Entry

variable {s : State}

theorem tick_of_interrupt (hp : s.phase = .wait) (hq : s.device.irqPending = true) (he : s.device.irqEnable = true)
    (low : Bool) : tick low s = endOfTick low (enterHandler (tickBegun s)) :=
  congrArg (endOfTick low) (handlerTick_of_interrupt (s := tickBegun s) hp hq he)

theorem tick_of_latency (hp : s.phase = .lat) (low : Bool) :
    tick low s = endOfTick low (latencyPoll (tickBegun s)) :=
  congrArg (endOfTick low) (handlerTick_of_latency (s := tickBegun s) hp)

/-- What follows the interrupt in its tick, if anything, is a first action. -/
theorem kept_enterHandler_of_takeInterrupt (s : State) : Kept (takeInterrupt s) (enterHandler s) := by
  rcases enterHandler_cases s with ⟨-, e⟩ | ⟨-, e⟩ <;> rw [e]
  · exact kept_firstAction _
  · exact .same _

/-- After a clear, nothing the handler does in the same tick sets the flag: only an edge of that tick does (R229). -/
theorem Kept.irqNext_of_cleared {t : State} (h : Kept s t) (hclear : s.device.clearNow = true) :
    irqNext t.device = edgeNow s.device := by
  rw [irqNext, edgeNow, edgeNow, h.clearNow hclear, h.prevLine, h.lineNow, Bool.not_true, Bool.and_false,
    Bool.false_or]

theorem enterHandler_irqNext (s : State) : irqNext (enterHandler s).device = edgeNow s.device :=
  (kept_enterHandler_of_takeInterrupt s).irqNext_of_cleared rfl

end Entry

/-- Settles O60: entry takes the interrupt, and LAT decides in which tick the first action runs. -/
theorem interruptEntryClearsThePendingFlag : Obligations.InterruptEntryClearsThePendingFlag := by
  intro s low _
  refine ⟨fun hp hq he => ?_, fun hp => ?_⟩
  · intro entered
    rw [tick_of_interrupt hp hq he low]
    refine ⟨fun hlat => ?_, fun hlat => ?_, ?_⟩
    · have hentry : enterHandler (tickBegun s) = entered := if_neg (Nat.not_le_of_lt hlat)
      rw [hentry]
    · have haction : enterHandler (tickBegun s) = firstAction entered := if_pos hlat.le
      rw [haction]
    · rw [endOfTick_irqPending, enterHandler_irqNext]
      rfl
  · intro counted
    rw [tick_of_latency hp low]
    refine ⟨fun hwait => ?_, fun hdone => ?_⟩
    · have hcount : latencyPoll (tickBegun s) = counted := if_neg (Nat.not_le_of_lt hwait)
      rw [hcount]
    · have haction : latencyPoll (tickBegun s) = firstAction counted := if_pos hdone
      rw [haction]

end Sys2Proof.Machine
end

/-! PROOF. The line stuck low (70_reset_and_hazards R277, 93_implementation_defined U10): the release wait of RESET
has no bound, and its ticks drive nothing. -/
section

namespace Sys2Proof.Machine

/-! ### A tick of the release wait -/

theorem handlerTick_of_releaseWait {s : State} (hp : s.phase = .relWait) : handlerTick s = releasePoll s := by
  simp [handlerTick, hp]

/-- A low line leaves the handler where it waits (R128). -/
theorem releasePoll_of_low {s : State} (hp : s.phase = .relWait) (hl : s.device.lineNow = false) :
    releasePoll s = s := by
  rcases releasePoll_cases s with ⟨-, e⟩ | ⟨hh, -⟩
  · rw [e, waitIn, ← hp]
  · exact absurd (hl.symm.trans hh) Bool.false_ne_true

/-- While the line is low the handler does nothing in the tick: only the end of the tick remains. -/
theorem tick_of_releaseWait_low {s : State} (hp : s.phase = .relWait) (hl : s.device.lineNow = false) (low : Bool) :
    tick low s = endOfTick low (tickBegun s) :=
  congrArg (endOfTick low) <|
    (handlerTick_of_releaseWait (s := tickBegun s) hp).trans (releasePoll_of_low (s := tickBegun s) hp hl)

/-! ### The wait without end -/

/-- `t` waits for the release on a line that is low without the slave, and of the session and the events of `s` only TO
may have changed. -/
structure StuckSince (s t : State) : Prop where
  phase : t.phase = .relWait
  lineNow : t.device.lineNow = false
  driveLow : t.device.driveLow = false
  session : t.session = { s.session with timerOverflow := t.session.timerOverflow }
  events : t.events = s.events

/-- The Timer may wrap, which sets TO; nothing tests it in this wait (R277). -/
theorem StuckSince.tick_low {s t : State} (h : StuckSince s t) : StuckSince s (tick true t) := by
  have htick := tick_of_releaseWait_low h.phase h.lineNow true
  refine ⟨?_, tick_true_lineNow t, ?_, ?_, ?_⟩ <;> rw [htick]
  · exact h.phase
  · exact h.driveLow
  · exact congrArg
      (fun x : Session => { x with timerOverflow := x.timerOverflow || timerWraps t.cfg t.device }) h.session
  · exact h.events

theorem StuckSince.tickList_low {s t : State} (h : StuckSince s t) (n : Nat) :
    StuckSince s (tickList (List.replicate n true) t) := by
  induction n with
  | zero => exact h
  | succ n ih =>
    rw [List.replicate_succ', tickList_concat]
    exact ih.tick_low

/-- Settles O57: the wait is kept by each tick on a low line, so by any number of them. -/
theorem stuckLowLineKeepsTheReleaseWait : Obligations.StuckLowLineKeepsTheReleaseWait := by
  intro s n hp hl hd
  have hstart : StuckSince s s := ⟨hp, hl, hd, rfl, rfl⟩
  obtain ⟨hphase, hline, hdrive, hsession, hevents⟩ := hstart.tickList_low n
  exact ⟨hphase, hline, hdrive, hsession, hevents⟩

end Sys2Proof.Machine
end
